-- ==== Sys2Proof/Word.lean ====
section
/-! DEFINITION. The word types of the Shenidra S9 (00 R4, 02 R39, 04 R77): 32-bit operands, 64-bit
instruction words and registers, 128-bit lane masks, bytes. -/

namespace Sys2Proof

/-- A 32-bit operand or register (R39). -/
abbrev Word := BitVec 32
/-- A 64-bit instruction word or wide register (R27). -/
abbrev DWord := BitVec 64
/-- One bit per lane of a group (R77): bit l is lane l. -/
abbrev Mask := BitVec 128
/-- The smallest addressable unit of memory. -/
abbrev Byte := BitVec 8

end Sys2Proof
end

