-- ==== Sys2Proof/Machine/Store.lean ====
section
/-! DEFINITION. Sparse data by key, in one canonical form: keys strictly rising, no entry equal to the
value an unlisted key reads as. Memory, register windows, scalars, latches, banks and per-lane values
are all held so. -/

namespace Sys2Proof.Machine

/-- A sparse map from Nat keys. For bytes it is a list of `Host.Cell`. -/
abbrev SMap (β : Type) := List (Nat × β)

/-- The entry at a key. -/
def SMap.get? {β : Type} : SMap β → Nat → Option β
  | [], _ => none
  | (k, v) :: m, a => if a = k then some v else SMap.get? m a

/-- The value at a key; `d` where nothing is listed. -/
def SMap.get {β : Type} (m : SMap β) (a : Nat) (d : β) : β := (m.get? a).getD d

/-- Put an entry at a key, keeping the order of keys. -/
def SMap.put {β : Type} : SMap β → Nat → β → SMap β
  | [], a, x => [(a, x)]
  | (k, v) :: m, a, x =>
    if a < k then (a, x) :: (k, v) :: m
    else if a = k then (a, x) :: m
    else (k, v) :: SMap.put m a x

/-- Remove the entry at a key. -/
def SMap.del {β : Type} (m : SMap β) (a : Nat) : SMap β := m.filter (fun e => e.1 != a)

/-- Write a key, where an unlisted key reads as `d`: writing `d` removes the entry. -/
def SMap.set {β : Type} [DecidableEq β] (d : β) (m : SMap β) (a : Nat) (x : β) : SMap β :=
  if x = d then m.del a else m.put a x

/-- Every key of the map is above `b`, and keys rise strictly. -/
def SMap.above {β : Type} (b : Nat) : SMap β → Bool
  | [] => true
  | (k, _) :: m => b < k && SMap.above k m

/-- Keys rise strictly. -/
def SMap.sorted {β : Type} : SMap β → Bool
  | [] => true
  | (k, _) :: m => SMap.above k m

/-- The canonical form: keys rise strictly and no entry equals the default. -/
def SMap.wf {β : Type} [DecidableEq β] (d : β) (m : SMap β) : Bool :=
  m.sorted && m.all (fun e => e.2 ≠ d)

/-- Write a run of consecutive keys. -/
def SMap.setRun {β : Type} [DecidableEq β] (d : β) (m : SMap β) (a : Nat) : List β → SMap β
  | [] => m
  | x :: xs => SMap.setRun d (m.set d a x) (a + 1) xs

/-- Read `n` consecutive keys. -/
def SMap.getRun {β : Type} (m : SMap β) (a n : Nat) (d : β) : List β :=
  (List.range n).map (fun i => m.get (a + i) d)

/-- Drop every entry whose key lies in [lo, hi). -/
def SMap.clearRange {β : Type} (m : SMap β) (lo hi : Nat) : SMap β :=
  m.filter (fun e => e.1 < lo || hi ≤ e.1)

/-! ## Bytes and words, little-endian (R56, R170, R300) -/

/-- The number whose bytes, least significant first, are given. -/
def natOfBytes : List Byte → Nat
  | [] => 0
  | b :: bs => b.toNat + 256 * natOfBytes bs

/-- The `n` low bytes of a number, least significant first. -/
def bytesOfNat : Nat → Nat → List Byte
  | 0, _ => []
  | n + 1, x => BitVec.ofNat 8 x :: bytesOfNat n (x / 256)

def wordOfBytes (bs : List Byte) : Word := BitVec.ofNat 32 (natOfBytes bs)
def bytesOfWord (w : Word) : List Byte := bytesOfNat 4 w.toNat

/-- Little-endian number of `n` bytes at offset `o` of a byte list. -/
def leAt (bs : List Byte) (o n : Nat) : Nat := natOfBytes ((bs.drop o).take n)

/-- The words of a byte list, four bytes each. -/
def wordsOfBytes : Nat → List Byte → List Word
  | 0, _ => []
  | n + 1, bs => wordOfBytes (bs.take 4) :: wordsOfBytes n (bs.drop 4)

/-- Ascending list of the set bits of a lane mask. -/
def lanesOf (m : Mask) : List Nat := (List.range 128).filter (fun l => m.getLsbD l)

/-- The mask with the given lanes set. -/
def maskOf (ls : List Nat) : Mask := ls.foldl (fun m l => m ||| BitVec.twoPow 128 l) 0#128

/-- Mask of the lanes below a width. -/
def maskBelow (w : Nat) : Mask := BitVec.ofNat 128 (2 ^ w - 1)

/-- Update the elements of a list that satisfy a test. -/
def updWhere {α : Type} (p : α → Bool) (f : α → α) (l : List α) : List α :=
  l.map (fun x => if p x then f x else x)

/-- Replace the element at an index. -/
def setAt {α : Type} (l : List α) (i : Nat) (x : α) : List α := l.set i x

end Sys2Proof.Machine
end

