-- ==== Sys2Proof/Machine/Float.lean ====
section
/-! DEFINITION. Floating formats, exact values, rounding and flags (R142 to R146), the arithmetic of
R153 to R156, R161, R162 on them, and the special functions (R157 to R159). Kernels evaluate it all. -/

namespace Sys2Proof.Machine

/-- log2 of the fixed-point unit of the special functions. -/
def sfuP : Nat := 520
/-- floor(pi * 2^700). -/
def piFix : Nat := 0x3243f6a8885a308d313198a2e03707344a4093822299f31d0082efa98ec4e6c89452821e638d01377be5466cf34e90c6cc0ac29b7c97c50dd3f84d5b5b54709179216d5d98979fb1bd1310ba698dfb5ac2ffd72dbd01adfb
/-- floor(ln 2 * 2^520). -/
def ln2Fix : Nat := 0xb17217f7d1cf79abc9e3b39803f2f6af40f343267298b62d8a0d175b8baafa2be7b876206debac98559552fb4afa1b10ed2eae35c138214427573b291169b8253e

/-! ## Formats (R142) -/

/-- Fraction width, exponent width, least normal exponent. -/
structure FFmt where
  f : Nat
  eb : Nat
  emin : Int
  deriving DecidableEq, Repr

def f32 : FFmt := ⟨23, 8, -126⟩
def f16 : FFmt := ⟨10, 5, -14⟩
def bf16 : FFmt := ⟨7, 8, -126⟩

def FFmt.sign (t : FFmt) : Nat := 2 ^ (t.f + t.eb)
def FFmt.inf (t : FFmt) : Nat := (2 ^ t.eb - 1) * 2 ^ t.f
def FFmt.nan (t : FFmt) : Nat := t.inf + 2 ^ (t.f - 1)
def FFmt.maxFin (t : FFmt) : Nat := t.inf - 1
def FFmt.one (t : FFmt) : Nat := (2 ^ (t.eb - 1) - 1) * 2 ^ t.f

/-- A value of a format: finite values are num * 2^exp with a sign. -/
inductive FVal where
  | nan (sig : Bool)
  | inf (neg : Bool)
  | fin (neg : Bool) (num : Nat) (exp : Int)
  deriving DecidableEq, Repr, Inhabited

def FFmt.unpack (t : FFmt) (x : Nat) : FVal :=
  let neg := x / t.sign % 2 == 1
  let e := x / 2 ^ t.f % 2 ^ t.eb
  let m := x % 2 ^ t.f
  if e = 2 ^ t.eb - 1 then (if m = 0 then .inf neg else .nan (m < 2 ^ (t.f - 1)))
  else if e = 0 then .fin neg m (t.emin - t.f)
  else .fin neg (m + 2 ^ t.f) (t.emin - t.f + (e - 1 : Nat))

/-! ## Flags (R146) -/

def fINV : Nat := 1
def fDZ : Nat := 2
def fOVF : Nat := 4
def fUNF : Nat := 8

/-- A result: its pattern and the flags it raises. -/
structure FRes where
  bits : Nat
  flags : Nat
  deriving DecidableEq, Repr, Inhabited

/-! ## Rounding (R144) -/

/-- An exact magnitude num * 2^exp; `sticky` says the true one lies strictly between num and num + 1. -/
structure Ex where
  neg : Bool
  num : Nat
  exp : Int
  sticky : Bool
  deriving DecidableEq, Repr, Inhabited

/-- Shift right by n bits, with whether anything was lost against one half: 0 exact, 1 below half,
2 half, 3 above half. -/
def shr (num n : Nat) (sticky : Bool) : Nat × Nat :=
  if n = 0 then (num, if sticky then 1 else 0)
  else
    let r := num % 2 ^ n
    let h := 2 ^ (n - 1)
    (num / 2 ^ n,
     if r = 0 then (if sticky then 1 else 0)
     else if r < h then 1
     else if r = h then (if sticky then 3 else 2)
     else 3)

/-- Whether a magnitude goes up under a mode: RNE, RZ, toward +inf, toward -inf. -/
def roundUp (mode : BitVec 2) (neg : Bool) (m lost : Nat) : Bool :=
  match mode.toNat with
  | 0 => lost == 3 || (lost == 2 && m % 2 == 1)
  | 1 => false
  | 2 => !neg && lost != 0
  | _ => neg && lost != 0

/-- Round an exact value to a format. -/
def FFmt.round (t : FFmt) (x : Ex) (mode : BitVec 2) : FRes :=
  let s := if x.neg then t.sign else 0
  if x.num = 0 ∧ !x.sticky then ⟨s, 0⟩
  else
    let e : Int := (Nat.log2 x.num : Int) + x.exp
    let q : Int := (if e < t.emin then t.emin else e) - t.f
    let (m, lost) := if x.exp ≥ q then (x.num * 2 ^ (x.exp - q).toNat, if x.sticky then 1 else 0) else shr x.num (q - x.exp).toNat x.sticky
    let m := if roundUp mode x.neg m lost then m + 1 else m
    let pat := (q - (t.emin - t.f)).toNat * 2 ^ t.f + m
    if pat ≥ t.inf then
      let toInf := match mode.toNat with | 0 => true | 1 => false | 2 => !x.neg | _ => x.neg
      ⟨s + (if toInf then t.inf else t.maxFin), fOVF⟩
    else ⟨s + pat, if e < t.emin ∧ lost ≠ 0 then fUNF else 0⟩

/-! ## Exact sums and products -/

/-- A signed multiple of a power of two. -/
structure Dy where
  m : Int
  e : Int
  deriving DecidableEq, Repr, Inhabited

def Dy.add (a b : Dy) : Dy :=
  if a.m = 0 then b else if b.m = 0 then a
  else if a.e ≤ b.e then ⟨a.m + b.m * 2 ^ (b.e - a.e).toNat, a.e⟩
  else ⟨a.m * 2 ^ (a.e - b.e).toNat + b.m, b.e⟩
def Dy.mul (a b : Dy) : Dy := ⟨a.m * b.m, a.e + b.e⟩
def Dy.ofFin (neg : Bool) (num : Nat) (exp : Int) : Dy := ⟨if neg then -(num : Int) else num, exp⟩
def Dy.lt (a b : Dy) : Bool := (Dy.add a ⟨-b.m, b.e⟩).m < 0
def Dy.ex (a : Dy) (zeroNeg : Bool) : Ex := ⟨if a.m = 0 then zeroNeg else a.m < 0, a.m.natAbs, a.e, false⟩

/-- Sign of an exact zero sum (R144). -/
def zeroSign (n1 n2 : Bool) (mode : BitVec 2) : Bool := if n1 == n2 then n1 else mode == 3

def FFmt.nanRes (t : FFmt) (flags : Nat) : FRes := ⟨t.nan, flags⟩
def isSig : FVal → Bool | .nan true => true | _ => false
def isNan : FVal → Bool | .nan _ => true | _ => false
def invIf (b : Bool) : Nat := if b then fINV else 0

/-- x + y, one rounding. -/
def FFmt.add (t : FFmt) (x y : FVal) (mode : BitVec 2) : FRes :=
  match x, y with
  | .nan a, y => t.nanRes (invIf (a || isSig y))
  | _, .nan b => t.nanRes (invIf b)
  | .inf a, .inf b => if a == b then ⟨(if a then t.sign else 0) + t.inf, 0⟩ else t.nanRes fINV
  | .inf a, .fin _ _ _ => ⟨(if a then t.sign else 0) + t.inf, 0⟩
  | .fin _ _ _, .inf b => ⟨(if b then t.sign else 0) + t.inf, 0⟩
  | .fin n1 m1 e1, .fin n2 m2 e2 =>
    t.round (((Dy.ofFin n1 m1 e1).add (Dy.ofFin n2 m2 e2)).ex (zeroSign n1 n2 mode)) mode

def FVal.neg : FVal → FVal
  | .nan s => .nan s
  | .inf n => .inf (!n)
  | .fin n m e => .fin (!n) m e

def FVal.isNeg : FVal → Bool
  | .nan _ => false
  | .inf n => n
  | .fin n _ _ => n

/-- The exact product as a value; NaN where undefined, with whether it was made from non-NaNs. -/
def FVal.mul (x y : FVal) : FVal × Bool :=
  match x, y with
  | .nan a, y => (.nan (a || isSig y), false)
  | _, .nan b => (.nan b, false)
  | .inf a, .inf b => (.inf (a != b), false)
  | .inf a, .fin n m _ => if m = 0 then (.nan false, true) else (.inf (a != n), false)
  | .fin n m _, .inf b => if m = 0 then (.nan false, true) else (.inf (b != n), false)
  | .fin n1 m1 e1, .fin n2 m2 e2 => (.fin (n1 != n2) (m1 * m2) (e1 + e2), false)

def FFmt.mul (t : FFmt) (x y : FVal) (mode : BitVec 2) : FRes :=
  match x.mul y with
  | (.nan s, inv) => t.nanRes (invIf (s || inv))
  | (.inf n, _) => ⟨(if n then t.sign else 0) + t.inf, 0⟩
  | (.fin n m e, _) => t.round ⟨n, m, e, false⟩ mode

/-- x * y + z, one rounding; 0 * inf + NaN is INV (R153). -/
def FFmt.fma (t : FFmt) (x y z : FVal) (mode : BitVec 2) : FRes :=
  match x.mul y, z with
  | (.nan s, inv), z => t.nanRes (invIf (s || inv || isSig z))
  | (p, _), z => t.add p z mode

/-- The clamp of SAT (R153): NaN to +0, then to [+0, 1]. -/
def FFmt.sat (t : FFmt) (r : FRes) : FRes :=
  match t.unpack r.bits with
  | .nan _ => ⟨0, r.flags⟩
  | .inf n => ⟨if n then 0 else t.one, r.flags⟩
  | .fin n _ _ => if n then ⟨0, r.flags⟩ else if r.bits > t.one then ⟨t.one, r.flags⟩ else r

/-- Order of two values that are no NaN, with -0 below +0 (FMIN, FMAX). -/
def FFmt.key (t : FFmt) (x : Nat) : Int := if x ≥ t.sign then -(x - t.sign : Nat) - 1 else x

def FFmt.minmax (t : FFmt) (isMax : Bool) (a b : Nat) : FRes :=
  let x := t.unpack a
  let y := t.unpack b
  let fl := invIf (isSig x || isSig y)
  if isNan x && isNan y then ⟨t.nan, fl⟩
  else if isNan x then ⟨b, fl⟩
  else if isNan y then ⟨a, fl⟩
  else if (t.key a < t.key b) != isMax then ⟨a, fl⟩ else ⟨b, fl⟩

/-- Comparison of values: none where one is NaN, else -1, 0 or 1; zeros are equal (R143). -/
def cmpVal (x y : FVal) : Option Int :=
  match x, y with
  | .nan _, _ => none
  | _, .nan _ => none
  | .inf a, .inf b => some (if a == b then 0 else if a then -1 else 1)
  | .inf a, .fin _ _ _ => some (if a then -1 else 1)
  | .fin _ _ _, .inf b => some (if b then 1 else -1)
  | .fin n1 m1 e1, .fin n2 m2 e2 =>
    let d := ((Dy.ofFin n1 m1 e1).add (Dy.ofFin (!n2) m2 e2)).m
    some (if d < 0 then -1 else if d = 0 then 0 else 1)

/-! ## Integers (R155, R161) -/

/-- A finite magnitude rounded to an integer under a mode. -/
def roundInt (neg : Bool) (num : Nat) (exp : Int) (mode : BitVec 2) : Nat :=
  if exp ≥ 0 then num * 2 ^ exp.toNat
  else
    let (m, lost) := shr num (-exp).toNat false
    if roundUp mode neg m lost then m + 1 else m

/-- A value clamped into [lo, hi] as an integer: 0 and INV for NaN, a bound and INV out of range. -/
def toInt (x : FVal) (mode : BitVec 2) (lo hi : Int) : Int × Nat :=
  match x with
  | .nan _ => (0, fINV)
  | .inf n => (if n then lo else hi, fINV)
  | .fin n m e =>
    let v : Int := roundInt n m e mode
    let v := if n then -v else v
    if v < lo then (lo, fINV) else if hi < v then (hi, fINV) else (v, 0)

def FFmt.ofInt (t : FFmt) (v : Int) (mode : BitVec 2) : FRes := t.round ⟨v < 0, v.natAbs, 0, false⟩ mode

/-- FRND: an integral f32 (R155). -/
def frndOf (x : Nat) (mode : BitVec 2) : FRes :=
  match f32.unpack x with
  | .nan s => ⟨f32.nan, invIf s⟩
  | .inf _ => ⟨x, 0⟩
  | .fin n m e => if m = 0 then ⟨x, 0⟩ else ⟨(f32.round ⟨n, roundInt n m e mode, 0, false⟩ 0).bits, 0⟩

/-- FCLASS (R156). -/
def fclassOf (x : Nat) : Nat :=
  match f32.unpack x with
  | .nan s => if s then 256 else 512
  | .inf n => if n then 1 else 128
  | .fin n m _ =>
    if m = 0 then (if n then 8 else 16)
    else if m < 2 ^ 23 then (if n then 4 else 32)
    else (if n then 2 else 64)

/-- A value of one format in another (R161). -/
def convert (a b : FFmt) (x : Nat) (mode : BitVec 2) : FRes :=
  match a.unpack x with
  | .nan s => ⟨b.nan, invIf s⟩
  | .inf n => ⟨(if n then b.sign else 0) + b.inf, 0⟩
  | .fin n m e => b.round ⟨n, m, e, false⟩ mode

/-- SAT of a narrowing: an infinity becomes the largest finite value (R161). -/
def FFmt.finite (t : FFmt) (r : FRes) : FRes :=
  if r.bits % t.sign = t.inf then ⟨r.bits - 1, r.flags⟩ else r

/-- MODA and MODB on a pattern (R33). -/
def modify (t : FFmt) (m : BitVec 2) (x : Nat) : Nat :=
  match m.toNat with
  | 0 => x
  | 1 => if x ≥ t.sign then x - t.sign else x + t.sign
  | 2 => x % t.sign
  | _ => x % t.sign + t.sign

/-! ## Special functions (R157, R158) -/

/-- floor(sqrt n), bit by bit from bit k - 1 down. -/
def isqrtFrom (n : Nat) : Nat → Nat → Nat
  | 0, r => r
  | k + 1, r =>
    let r' := r + 2 ^ k
    isqrtFrom n k (if r' * r' ≤ n then r' else r)
def isqrt (n : Nat) : Nat := isqrtFrom n (Nat.log2 n / 2 + 1) 0

/-- Taylor sum of exp(y) - 1 in fixed point. -/
def expSum (y : Nat) : Nat → Nat → Nat → Nat
  | 0, _, _ => 0
  | n + 1, k, term =>
    let term := term * y / 2 ^ sfuP / k
    term + expSum y n (k + 1) term

/-- 2^(f / 2^P) for 0 ≤ f < 2^P, in fixed point. -/
def exp2Frac (f : Nat) : Nat := 2 ^ sfuP + expSum (f * ln2Fix / 2 ^ sfuP) 110 1 (2 ^ sfuP)

/-- Bits of log2 of a fixed-point m in [1, 2), one squaring for each. -/
def log2Bits : Nat → Nat → Nat → Nat
  | 0, _, acc => acc
  | n + 1, m, acc =>
    let m2 := m * m / 2 ^ sfuP
    if m2 ≥ 2 ^ (sfuP + 1) then log2Bits n (m2 / 2) (2 * acc + 1) else log2Bits n m2 (2 * acc)

/-- Alternating Taylor sum: term * (1 - y2/(k(k+1)) * (1 - ...)), signed. -/
def altSum (y2 : Nat) : Nat → Nat → Nat → Int
  | 0, _, _ => 0
  | n + 1, k, term => (term : Int) - altSum y2 n (k + 2) (term * y2 / 2 ^ sfuP / (k * (k + 1)))

/-- sin and cos of a fixed-point angle in [0, pi/2). -/
def sinFix (y : Nat) : Int := altSum (y * y / 2 ^ sfuP) 60 2 y
def cosFix (y : Nat) : Int := altSum (y * y / 2 ^ sfuP) 60 1 (2 ^ sfuP)

/-- The exact value of a fixed-point result, known to lie just above or below. -/
def exFix (neg : Bool) (v : Nat) : Ex := ⟨neg, v, -(sfuP : Int), true⟩

/-- |x| mod (pi/2) in fixed point, and the quadrant. -/
def reduce (num : Nat) (exp : Int) : Nat × Nat :=
  -- num * 2^exp in units of 2^-700
  let X := num * 2 ^ (exp + 700).toNat
  let h := piFix / 2
  let q := X / h
  ((X - q * h) / 2 ^ (700 - sfuP), q % 4)

/-- The exact value of a special function at a finite, non-special argument. -/
def sfuEx (op : Nat) (neg : Bool) (num : Nat) (exp : Int) : Ex :=
  match op with
  | 0 =>  -- 1 / x
    let k := 200 + Nat.log2 num
    ⟨neg, 2 ^ k / num, -exp - k, 2 ^ k % num != 0⟩
  | 1 =>  -- 1 / sqrt x
    let odd := exp % 2 != 0
    let m := if odd then 2 * num else num
    let e := if odd then exp - 1 else exp
    let k := 200 + Nat.log2 m
    let r := isqrt (2 ^ (2 * k) / m)
    ⟨false, r, -(e / 2) - k, r * r * m != 2 ^ (2 * k)⟩
  | 2 =>  -- 2^x
    let fx : Int := if exp ≥ 0 then (num * 2 ^ (min exp.toNat 20 + sfuP) : Nat) else (num * 2 ^ sfuP / 2 ^ (-exp).toNat : Nat)
    let v : Int := if neg then -fx else fx
    let n := v / (2 ^ sfuP : Nat)
    let f := (v - n * (2 ^ sfuP : Nat)).toNat
    let n := if n > 400 then 400 else if n < -400 then -400 else n
    if f = 0 then ⟨false, 1, n, false⟩ else ⟨false, exp2Frac f, n - sfuP, true⟩
  | 3 =>  -- log2 x
    let l := Nat.log2 num
    let e : Int := exp + l
    let m := num * 2 ^ sfuP / 2 ^ l
    if m = 2 ^ sfuP then ⟨e < 0, e.natAbs, 0, false⟩
    else
      let n := 240
      let b := log2Bits n m 0
      if e ≥ 0 then ⟨false, e.toNat * 2 ^ n + b, -(n : Int), true⟩
      else ⟨true, e.natAbs * 2 ^ n - b - 1, -(n : Int), true⟩
  | o =>
    let (y, q) := reduce num exp
    let q := if o = 4 then q else (q + 1) % 4
    -- sin in quadrant q of the reduced angle
    let v : Int := match q with
      | 0 => sinFix y
      | 1 => cosFix y
      | 2 => -sinFix y
      | _ => -cosFix y
    exFix ((v < 0) != (neg && o == 4)) (v.natAbs - 1)

/-- The multiple of 2 ulp(e) nearest to e, a tie to the even quotient (R157, level 3). -/
def roundCoarse (x : Ex) : FRes :=
  let e : Int := (Nat.log2 x.num : Int) + x.exp
  let q : Int := (if e < -126 then -126 else e) - 22
  let (m, lost) := if x.exp ≥ q then (x.num * 2 ^ (x.exp - q).toNat, 0) else shr x.num (q - x.exp).toNat x.sticky
  let m' := if lost == 3 || (lost == 2 && m % 2 == 1) then m + 1 else m
  let r := f32.round ⟨x.neg, m', q, false⟩ 0
  ⟨r.bits, (f32.round x 0).flags ||| (r.flags &&& fOVF)⟩

/-- The SFU on an f32 pattern (R157, R158). -/
def sfu (op : Nat) (level3 : Bool) (x : Nat) : FRes :=
  let sgn (n : Bool) : Nat := if n then f32.sign else 0
  match f32.unpack x with
  | .nan s => ⟨f32.nan, invIf s⟩
  | .inf n =>
    match op with
    | 0 => ⟨sgn n, 0⟩
    | 1 => if n then ⟨f32.nan, fINV⟩ else ⟨0, 0⟩
    | 2 => if n then ⟨0, 0⟩ else ⟨f32.inf, 0⟩
    | 3 => if n then ⟨f32.nan, fINV⟩ else ⟨f32.inf, 0⟩
    | _ => ⟨f32.nan, fINV⟩
  | .fin n m e =>
    if m = 0 then
      match op with
      | 0 => ⟨sgn n + f32.inf, fDZ⟩
      | 1 => ⟨sgn n + f32.inf, fDZ⟩
      | 2 => ⟨f32.one, 0⟩
      | 3 => ⟨f32.sign + f32.inf, fDZ⟩
      | 4 => ⟨x, 0⟩
      | _ => ⟨f32.one, 0⟩
    else if n && (op == 1 || op == 3) then ⟨f32.nan, fINV⟩
    else
      let v := sfuEx op n m e
      if level3 && v.sticky then roundCoarse v else f32.round v 0

end Sys2Proof.Machine
end

