-- ==== Sys2Proof/Config.lean ====
section
/-! DEFINITION. What one implementation fixes and the spec does not: uninterpreted constants without a
body, so that no proof can know a value of them. Each is named in the assumption log. -/

namespace Sys2Proof.Config

/-- What a byte of a scratchpad holds before anything is written there (R20 zeroes it only where it
passes to a different context): by allotment number and offset. -/
opaque freeScratch : Nat → Nat → Byte

/-- HBM pseudo-channel of a 128 KiB frame (R287 names 256 channels and no map). -/
opaque channelOf : Nat → Nat

/-- Page of host memory that ATS answers for a PASID and a host virtual 4 KiB page, or a translation fault
(R291, R325; the host's page tables are outside the device). -/
opaque ats : Nat → Nat → Option Nat

/-- Length of section i of the image numbered n, before its bound B_i (R350). -/
opaque sectionLen : Nat → Nat → Nat

/-- Byte of a sealed image, an area or its tags: by sealing number and offset (R308; AES-256-GCM is
not interpreted). -/
opaque cipherByte : Nat → Nat → Byte

/-- SHA-512 (measurement extended, digest), R333. -/
opaque sha512 : BitVec 512 → BitVec 512 → BitVec 512

/-- Digest that a start-up measures into register i (R333), by start number. -/
opaque bootDigest : Nat → Nat → BitVec 512

/-- The activity-counter estimate of energy, in nJ, by context and accounting tick (R279). -/
opaque energy : Nat → Nat → Nat

/-- Place of this package on a path that only passes through it, by job, destination and VC (R329 names the
ports in the order crossed; no rule says how a package knows its own place). -/
opaque hopIndex : Nat → Nat → Nat → Nat

/-- Link delay in ns of the i-th port of a path, on a package beyond this one (R330). -/
opaque peerDelay : Nat → Nat → Nat

/-- Stage-2 root that firmware gives a context it creates, by context number, and the bytes of its tables
(R7; "their stage-2 tables are set up by firmware"). -/
opaque firmwareRoot : Nat → BitVec 64
opaque firmwareTables : Nat → List (Nat × BitVec 8)

/-- Signature, certificate and key-exchange bytes of the responder, by message number (R336). -/
opaque spdmBytes : Nat → List Byte

end Sys2Proof.Config
end

