-- ==== Sys2Proof/Syntax.lean ====
section
/-! DEFINITION. The steps of the S9 as data: the six instruction formats (R32 to R37), the operand
names (R33, R39), one constructor of `Instr` for each row of the table of operations and events. -/

namespace Sys2Proof

/-! ## Operands -/

/-- A 10-bit source field (R39). Each alternative keeps every index bit of the field, so that
reserved indices stay visible to the checks. -/
inductive Src where
  | v (i : BitVec 9)        -- V0 to V511
  | latch (i : BitVec 7)    -- latch; bits 6:4 must be zero
  | scalar (i : BitVec 7)   -- S, M or E register
  | special (i : BitVec 7)  -- R42
  | const (i : BitVec 7)    -- R43
  deriving DecidableEq, Repr, Inhabited

/-- A destination [51:41] of format V (R33): suppress bit, kind bit, index. -/
structure Dst where
  sup : Bool
  kind : Bool
  idx : BitVec 9
  deriving DecidableEq, Repr, Inhabited

/-- A predicate field (R34): negate bit and P0 to P7. -/
structure Prd where
  neg : Bool
  idx : BitVec 3
  deriving DecidableEq, Repr, Inhabited

/-- Format V without major and minor (R33). -/
structure VForm where
  dst : Dst
  a : Src
  b : Src
  c : Src
  pred : Prd
  rnd : BitVec 2
  sat : Bool
  moda : BitVec 2
  modb : BitVec 2
  deriving DecidableEq, Repr, Inhabited

/-- Format I without major and minor (R36). -/
structure IForm where
  dst : Dst
  a : Src
  imm : Word
  deriving DecidableEq, Repr, Inhabited

/-- Format M of an instruction that returns a value (R36, R37): DATA is a destination. -/
structure MForm where
  data : Dst
  addr : Src
  coord : Src
  pred : Prd
  offs : BitVec 12
  scope : BitVec 4
  stream : Bool
  deriving DecidableEq, Repr, Inhabited

/-- Format M of a store (R37): DATA is bit 51 and a source field. -/
structure SForm where
  top : Bool
  data : Src
  addr : Src
  coord : Src
  pred : Prd
  offs : BitVec 12
  scope : BitVec 4
  stream : Bool
  deriving DecidableEq, Repr, Inhabited

/-- Format B without major and minor (R36). -/
structure BForm where
  pred : Prd
  kidx : BitVec 3
  target : Word
  indir : Src
  hint : BitVec 2
  res : Bool
  deriving DecidableEq, Repr, Inhabited

/-- Format X without major and minor (R36). -/
structure XForm where
  a : Src
  b : Src
  c : Src
  bank : BitVec 12
  flags : BitVec 10
  deriving DecidableEq, Repr, Inhabited

/-- Format Y without major and minor (R36). -/
structure YForm where
  dst : Dst
  src : Src
  sysid : BitVec 16
  res : BitVec 15
  deriving DecidableEq, Repr, Inhabited

/-- Format Y of WRSR (R307): bits 51:41 are a zero bit and the source field of the context. -/
structure YWForm where
  top : Bool
  ctx : Src
  src : Src
  sysid : BitVec 16
  res : BitVec 15
  deriving DecidableEq, Repr, Inhabited

/-! ## Minors (R47) -/

/-- IADD and ISUB: wrap, signed saturation, unsigned saturation. -/
inductive SatMode where | wrap | ssat | usat
  deriving DecidableEq, Repr, Inhabited
/-- IMULH, IMIN, IMAX: signed or unsigned reading. -/
inductive Sgn where | s | z
  deriving DecidableEq, Repr, Inhabited
/-- BFE: zero- or sign-extended (R128; .0 is z). -/
inductive Ext where | z | s
  deriving DecidableEq, Repr, Inhabited
/-- IMAD: wrap or signed saturation. -/
inductive MadMode where | wrap | ssat
  deriving DecidableEq, Repr, Inhabited
/-- ICMP conditions (R129). -/
inductive ICond where | eq | ne | lt | le | gt | ge | ltz | lez | gtz | gez
  deriving DecidableEq, Repr, Inhabited
/-- FCMP conditions (R154). -/
inductive FCond where | eq | ne | lt | le | gt | ge | num | nan
  deriving DecidableEq, Repr, Inhabited
/-- Rounding modes (R33, R144). -/
inductive Rnd where | rne | rz | up | down
  deriving DecidableEq, Repr, Inhabited
/-- CVT minors .0 to .13 (R160). -/
inductive CvtOp where
  | f32f16 | f32bf16 | f16f32 | bf16f32 | f32s32 | f32z32 | s32f32 | z32f32
  | f32lns | lnsf32 | bf16f16 | f16bf16 | f16x2 | bf16x2
  deriving DecidableEq, Repr, Inhabited
/-- The half formats of packed arithmetic (R162). -/
inductive Half where | f16 | bf16
  deriving DecidableEq, Repr, Inhabited
/-- SHFL minors (R134). -/
inductive ShflOp where | idx | up | down | xor
  deriving DecidableEq, Repr, Inhabited
/-- VOTE minors (R135). -/
inductive VoteOp where | all | any | ballot
  deriving DecidableEq, Repr, Inhabited
/-- REDUX minors (R136). -/
inductive ReduxOp where | add | min | max | and | or
  deriving DecidableEq, Repr, Inhabited
/-- LDB minors (R137). -/
inductive LdbW where | w32 | w64 | w128 | bcast
  deriving DecidableEq, Repr, Inhabited
/-- Access widths of STB, LDG and STG (R137, R192). -/
inductive Width3 where | w32 | w64 | w128
  deriving DecidableEq, Repr, Inhabited
/-- ATOM minors (R193). -/
inductive AtomOp where | add | min | max | and | or | xor | exch | fadd
  deriving DecidableEq, Repr, Inhabited
/-- FENCE minors (R205). -/
inductive FenceKind where | acq | rel | full
  deriving DecidableEq, Repr, Inhabited
/-- COLL minors (R240). -/
inductive CollOp where | allReduceSum | allGather | reduceScatter | broadcast
  deriving DecidableEq, Repr, Inhabited
/-- BR minors (R100). -/
inductive BrKind where | divergent | uniform
  deriving DecidableEq, Repr, Inhabited
/-- SPAWN minors (R66). -/
inductive SpawnKind where | plain | payload
  deriving DecidableEq, Repr, Inhabited
/-- FEEDPOP minors (R69). -/
inductive PopKind where | blocking | nonBlocking
  deriving DecidableEq, Repr, Inhabited
/-- MMA and MMAP minors (R253). -/
inductive MmaFmt where | bf16 | f16 | int | lns6
  deriving DecidableEq, Repr, Inhabited

/-! ## Arguments of the event rows -/

/-- A split: its group and its split-table entry (R77). -/
structure SplitRef where
  gid : Nat
  entry : Nat
  deriving DecidableEq, Repr, Inhabited

/-- An engine operation: cluster, context, serial (R222). The operations of COPY packets (R268) stand
under cluster 72. -/
structure OpRef where
  cluster : Nat
  ctx : Nat
  serial : Nat
  deriving DecidableEq, Repr, Inhabited

/-- A queue: partition and QID (R267). -/
structure QRef where
  part : Nat
  qid : Nat
  deriving DecidableEq, Repr, Inhabited

/-- A fabric packet (R328): header fields and payload. `sendWindow` is the whole window number, of
which the header flit carries [7:0]. -/
structure Packet where
  dst : Nat
  src : Nat
  job : Nat
  sendWindow : Nat
  vc : Nat
  kind : Nat
  seq : Nat
  addr : Nat
  payload : List Byte
  deriving DecidableEq, Repr, Inhabited

/-- PACKET_DELIVER: a packet of another package enters a receive buffer, or the oldest packet of a
receive buffer commits at its home (R212). -/
inductive Delivery where
  | arrive (port : Nat) (p : Packet)
  | commit (port vc : Nat)
  deriving DecidableEq, Repr, Inhabited

/-- REGISTER_WRITE: a context register written by a context (R307), or a register of a function's
BAR0 written by the host (R326). -/
inductive RegTarget where
  | ctxReg (actor target : Nat) (sysid : Nat) (value : DWord)
  | fnReg (fn : Nat) (offset : Nat) (value : DWord)
  deriving DecidableEq, Repr, Inhabited

/-- What a start-up finds (R333, R335): the outcome of each step's checks, self-tests and trainings.
These are facts about the part that the boot ROM measures. -/
structure BootFacts where
  manifestOk : Bool          -- step 1
  configOk : Bool            -- step 2
  slotAOk : Bool             -- step 3, image slot A
  slotASvn : Nat
  slotBOk : Bool             -- step 3, image slot B
  slotBSvn : Nat
  badClusters : List Nat     -- step 4: clusters that fail their self-test
  memFail : Nat              -- step 5: 0 trains at full rate, 1 at 85 %, 2 at 70 %, more: not at all
  cxlOk : Bool               -- step 6
  badPorts : List Nat        -- step 7
  controlOk : Bool           -- step 8
  linkDelays : List Nat      -- step 7: link delay of each port at training, in ns
  deriving DecidableEq, Repr, Inhabited

/-- The SPDM form of KEYBIND (R315). -/
structure KeybindReq where
  shell : Nat
  tenant : DWord
  accept : Byte
  key : BitVec 256
  deriving DecidableEq, Repr, Inhabited

/-- Why a running engine operation faults (R221). -/
inductive EngineFault where
  | translation (piece : Nat)   -- the source or destination of this piece
  | ecc (addr : Nat)
  | disagree                    -- members of a collective that disagree (R240)
  deriving DecidableEq, Repr, Inhabited

/-- What the power manager measures at a tick (R337): power in percent of the limit, and whether the
hottest die has reached 95 or 105 degrees. -/
structure PowerFacts where
  percent : Nat
  hot95 : Bool
  hot105 : Bool
  deriving DecidableEq, Repr, Inhabited

/-- A step of the PTP servo (R331, R332): the offset now measured, whether a grandmaster is locked. -/
structure PtpFacts where
  offset : Int
  deriving DecidableEq, Repr, Inhabited

/-- Every row of the table of operations and events. -/
inductive Instr where
  -- issue
  | clauseIssue
  -- integer and logic (R126 to R132)
  | iadd (m : SatMode) (f : VForm)
  | isub (m : SatMode) (f : VForm)
  | imul (f : VForm)
  | imulh (m : Sgn) (f : VForm)
  | imad (m : MadMode) (f : VForm)
  | imin (m : Sgn) (f : VForm)
  | imax (m : Sgn) (f : VForm)
  | iabs (f : VForm)
  | and (f : VForm)
  | or (f : VForm)
  | xor (f : VForm)
  | andn (f : VForm)
  | shl (f : VForm)
  | shr (f : VForm)
  | sar (f : VForm)
  | rol (f : VForm)
  | popc (f : VForm)
  | clz (f : VForm)
  | brev (f : VForm)
  | bfe (m : Ext) (f : VForm)
  | bfi (f : VForm)
  | icmp (m : ICond) (f : VForm)
  | sel (f : VForm)
  | mov (f : VForm)
  | movi (f : IForm)
  | plop (f : VForm)
  | dot4 (m : Sgn) (f : VForm)
  -- floating (R152 to R167)
  | fadd (f : VForm)
  | fsub (f : VForm)
  | fmul (f : VForm)
  | ffma (f : VForm)
  | fmin (f : VForm)
  | fmax (f : VForm)
  | fcmp (m : FCond) (f : VForm)
  | frnd (m : Rnd) (f : VForm)
  | fclass (f : VForm)
  | frcp (f : VForm)
  | frsq (f : VForm)
  | fexp2 (f : VForm)
  | flog2 (f : VForm)
  | fsin (f : VForm)
  | fcos (f : VForm)
  | cvt (m : CvtOp) (f : VForm)
  | pkadd (m : Half) (f : VForm)
  | pkmul (m : Half) (f : VForm)
  | pkfma (m : Half) (f : VForm)
  | fmtset (f : IForm)
  | fmtget (f : VForm)
  | lmul (f : VForm)
  | lsum (f : VForm)
  -- lane operations (R133 to R136)
  | shfl (m : ShflOp) (f : VForm)
  | vote (m : VoteOp) (f : VForm)
  | redux (m : ReduxOp) (f : VForm)
  -- banked store (R137 to R141)
  | ldb (m : LdbW) (f : MForm)
  | stb (m : Width3) (f : SForm)
  | spill (f : VForm)
  | fill (f : VForm)
  -- tensor handles and memory (R187 to R196)
  | hbind (f : VForm)
  | hinfo (f : VForm)
  | hinv (f : VForm)
  | ldt (f : MForm)
  | stt (f : SForm)
  | ldg (m : Width3) (f : MForm)
  | stg (m : Width3) (f : SForm)
  | atom (m : AtomOp) (f : MForm)
  | cas (f : MForm)
  | lr (f : MForm)
  | sc (f : MForm)
  | pref (f : MForm)
  -- the visibility machine (R197 to R218)
  | storeCommit (gid idx : Nat)
  | copyGrant (gid idx : Nat)
  | loadPerform (gid idx : Nat) (grant : Bool)
  | fence (m : FenceKind) (f : VForm)
  | arm (f : MForm)
  | waitm (f : VForm)
  | waitmTimeout (r : SplitRef)
  | time (f : VForm)
  -- engines (R220 to R240)
  | cpy (f : XForm)
  | gath (f : XForm)
  | scat (f : XForm)
  | coll (m : CollOp) (f : XForm)
  | engineSourceRead (o : OpRef) (piece : Nat)
  | engineSectorCommit (o : OpRef) (piece : Nat)
  | engineScratchLand (o : OpRef) (piece : Nat)
  | engineOpDone (o : OpRef)
  | engineOpFault (o : OpRef) (why : EngineFault)
  | ftest (f : VForm)
  | fwait (f : VForm)
  | fcancel (f : VForm)
  | awinit (f : VForm)
  | await (f : VForm)
  | awadd (f : VForm)
  | fork (f : XForm)
  | rdv (f : VForm)
  -- control flow (R100 to R111)
  | br (m : BrKind) (f : BForm)
  | bra (f : BForm)
  | jmpi (f : BForm)
  | call (f : BForm)
  | calli (f : BForm)
  | ret (f : BForm)
  | kset (f : BForm)
  | join (f : BForm)
  | joinw (f : BForm)
  | plset (f : VForm)
  | plbr (f : BForm)
  | exit (f : VForm)
  | nop (f : VForm)
  | yield (f : VForm)
  | wdog (f : VForm)
  | fairHoldExpire (gid : Nat)
  | watchdog (gid : Nat)
  -- groups and launches (R54 to R73)
  | spawn (m : SpawnKind) (f : XForm)
  | seedbedTimer (core ctx key : Nat)
  | launch (f : XForm)
  | launchNode (f : XForm)
  | wid (f : VForm)
  | barArrive (f : VForm)
  | barWait (f : VForm)
  | barSync (f : VForm)
  | feedpop (m : PopKind) (f : VForm)
  | feedpush (f : VForm)
  | sleep (f : VForm)
  | sleepTimeout (r : SplitRef)
  -- matrix (R241 to R262)
  | pairBind (f : VForm)
  | pairUnbind (f : VForm)
  | shape (f : XForm)
  | aballoc (f : XForm)
  | abfree (f : XForm)
  | abgrant (f : XForm)
  | abgrantRevoke (f : XForm)
  | aclr (f : XForm)
  | mma (m : MmaFmt) (f : XForm)
  | mmap (m : MmaFmt) (f : XForm)
  | guide (f : XForm)
  | sfence (f : XForm)
  | arrayOpStart (cluster : Nat)
  | arrayOpComplete (cluster pick : Nat)
  | pairWaitExpire (cluster : Nat)
  | ard (f : XForm)
  | awr (f : XForm)
  | trbp (f : XForm)
  -- traps and system registers (R296 to R307)
  | trap (f : YForm)
  | tret (f : YForm)
  | rdsr (f : YForm)
  | wrsr (f : YWForm)
  -- system acts (R313 to R321)
  | place (f : YForm)
  | placeRestore (f : YForm)
  | evict (f : YForm)
  | evictDestroy (f : YForm)
  | evictSeal (f : YForm)
  | evictDiscard (f : YForm)
  | evictionComplete (ctx : Nat)
  | cntrd (f : YForm)
  | bktrd (f : YForm)
  | keybind (f : YForm)
  | gswitchSave (f : YForm)
  | gswitchRestore (f : YForm)
  | bsad4 (f : VForm)
  -- admission, translation and register events
  | groupRelease (gid : Nat)
  | launchComplete (launch : Nat)
  | blockAdmit (core : Nat)
  | stalledAccessRetry (ctx ipage : Nat)
  | tinvStage1 (actor target : Nat) (value : DWord)
  | tinvStage2 (actor target : Nat) (value : DWord)
  | htabWrite (actor : Nat) (lim : Bool) (value : DWord)
  | registerWrite (t : RegTarget)
  -- fabric and time
  | packetSend (port vc : Nat)
  | packetDeliver (d : Delivery)
  | packetDiscard (port vc idx : Nat)
  | linkFault (port : Nat)
  | ptpMessage (p : PtpFacts)
  | offsetReport (position : Nat) (beyond : Bool)
  | offsetReportSend
  | timebadSet
  | timebadClear
  -- gang switch
  | gswitchWindowStart (ctx : Nat)
  | gswitchSeal (ctx : Nat)
  | gswitchWindfallSeal (ctx : Nat)
  | gswitchReinject (ctx : Nat)
  | gswitchResume (ctx : Nat)
  -- queues and packets
  | nopPacket (q : QRef)
  | kernelPacket (q : QRef)
  | graphPacket (q : QRef)
  | waitallPacket (q : QRef)
  | waitanyPacket (q : QRef)
  | waitPoll (q : QRef)
  | signalPacket (q : QRef)
  | feedPacket (q : QRef)
  | copyPacket (q : QRef)
  | fencePacket (q : QRef)
  | packetComplete (q : QRef) (idx : Nat)
  | doorbellWrite (q : QRef)
  | wakeIntervalEnd (ctx : Nat)
  | waitQuantum (q : QRef)
  | mapTick
  | watchListEval
  | queueDrained (q : QRef)
  | graphNodeComplete (run node : Nat)
  | graphRunEnd (run : Nat)
  -- metering and control complex
  | bucketTick
  | sliceEnd (ctx : Nat)
  | eccScrub (core : Nat)
  | heartwoodCheckpoint
  | heartwoodMismatch
  | powerManagerTick (p : PowerFacts)
  -- commands of a function (R327)
  | qcreate (fn : Nat)
  | qreset (fn : Nat)
  | qdestroy (fn : Nat)
  | qpin (fn : Nat)
  | pasiddrain (fn : Nat)
  | pasidRelease (pasid : Nat)
  | gangjoin (fn : Nat)
  | pathset (fn : Nat)
  | partset (fn : Nat)
  | resetCore (fn : Nat)
  | resetDie (fn : Nat)
  | resetDevice (fn : Nat)
  | timeset (fn : Nat)
  -- errors, start-up, attestation
  | coreControlError (core : Nat)
  | dieControlError (die : Nat)
  | dieOvertemp (die : Nat)
  | firmwareWatchdog
  | powerGood (b : BootFacts)
  | keybindRequest (r : KeybindReq)
  | getCertificate
  | challenge
  | getMeasurements
  | keyExchange
  | finish
  | meas7Extend (digest : BitVec 512)
  | firmwareUpdate (svn : Nat) (signed : Bool) (digest : BitVec 512)
  -- host memory and links
  | hostMemWrite (addr : Nat) (data : List Byte)
  | hostMemRead (addr n : Nat)
  | hostSnoopInvalidate (addr : Nat) (data : List Byte)
  | hostStoreAck (gid idx : Nat)
  | flitReplay (port : Nat)
  | linkRetrainComplete (port delay : Nat)
  | discardReportArrival (job : Nat)
  | atsTranslationResponse (pasid : Nat)
  deriving DecidableEq, Repr, Inhabited

end Sys2Proof
end

