-- ==== Sys2Proof/WellFormed.lean ====
section
/-! DEFINITION. Which instruction words are free of reserved, unused and unread non-zero fields
(R32, R33, R37, R39, R42, R43 and each entry's table of fields). A word that breaks its check traps
RESERVED_FIELD (R49). Checks that depend on the clause class stand in `Machine/Issue.lean`. -/

namespace Sys2Proof

/-! ## Fields -/

/-- The zero of a source field, which names nothing (R32, R41). -/
def Src.zero : Src := .v 0

/-- A source field whose code is defined in some class (R39, R42, R43). -/
def Src.ok : Src → Bool
  | .v _ => true
  | .latch i => i.toNat < 16
  | .scalar _ => true
  | .special i => i.toNat ≤ 16
  | .const i => i.toNat < 126

def Src.isV : Src → Bool | .v _ => true | _ => false
def Src.isScalar : Src → Bool | .scalar _ => true | _ => false
def Src.isConst : Src → Bool | .const _ => true | _ => false
def Src.isLatch : Src → Bool | .latch _ => true | _ => false
def Src.isSpecial : Src → Bool | .special _ => true | _ => false

/-- The inline constant 0, index 16 (R43). -/
def Src.const0 : Src := .const 16

/-- The all-zero destination field. -/
def Dst.zero : Dst := ⟨false, false, 0⟩

/-- SUP = 1 needs DKIND and DIDX zero (R33). -/
def Dst.supOk (d : Dst) : Bool := !d.sup || (!d.kind && d.idx == 0)

/-- V register, scalar register or suppressed. -/
def Dst.vs (d : Dst) : Bool := d.supOk
/-- V register or suppressed. -/
def Dst.vOnly (d : Dst) : Bool := d.supOk && !d.kind
/-- Scalar or suppressed (FEEDPOP, FEEDPUSH, REDUX, VOTE.ballot). -/
def Dst.sOnly (d : Dst) : Bool := d.supOk && (d.kind || d.sup)
/-- V register, predicate P0 to P7 or suppressed (R33). -/
def Dst.vp (d : Dst) : Bool := d.supOk && (!d.kind || d.idx.toNat < 8)

/-- The unpredicated form 0b0111 (R34). -/
def Prd.always : Prd := ⟨false, 7⟩

def use (u : Bool) (x : Src) : Bool := if u then x.ok else x == Src.zero

/-- The sources a format-V entry reads; every other source field is zero (R32). -/
def VForm.srcs (f : VForm) (a b c : Bool) : Bool := use a f.a && use b f.b && use c f.c

/-- No modifier admitted. -/
def VForm.noMods (f : VForm) : Bool := f.rnd == 0 && !f.sat && f.moda == 0 && f.modb == 0

/-- The modifiers a format-V entry admits (R33, R152). -/
def VForm.mods (f : VForm) (rnd sat ma mb : Bool) : Bool :=
  (rnd || f.rnd == 0) && (sat || !f.sat) && (ma || f.moda == 0) && (mb || f.modb == 0)

/-- Integer entries (R126). -/
def VForm.int (f : VForm) (a b c : Bool) : Bool := f.srcs a b c && f.noMods && f.dst.vs

/-- SRCA of FTEST, FWAIT and FCANCEL (R226): an F number, or the token form. -/
def VForm.future (f : VForm) : Bool :=
  f.dst.vs && f.noMods && f.c == Src.zero &&
  (match f.a with
   | .v i => i.toNat < 16 && f.b == Src.zero
   | .latch i => i == 0 && f.b.ok
   | _ => false)

/-- The registers RDSR and WRSR can name (R306). -/
def sysidOk (r : BitVec 16) : Bool := 1 ≤ r.toNat && r.toNat ≤ 0x1D

def BForm.base (f : BForm) : Bool := !f.res
def BForm.hintOk (f : BForm) : Bool := f.hint != 3
def BForm.targetOk (f : BForm) : Bool := f.target.extractLsb' 0 3 == 0

/-- A direct transfer's fields (R100). -/
def BForm.direct (f : BForm) : Bool :=
  f.base && f.kidx == 0 && f.targetOk && f.indir == Src.zero && f.hintOk

/-- An indirect transfer's fields (R100). -/
def BForm.indirect (f : BForm) : Bool :=
  f.base && f.kidx == 0 && f.target == 0 && f.indir.ok && f.hint == 0

/-- KSET, JOIN and JOINW (R105): [44:0] zero. -/
def BForm.kform (f : BForm) : Bool :=
  f.base && f.target == 0 && f.indir == Src.zero && f.hint == 0

/-- A copy descriptor instruction (R229). -/
def XForm.copyOk (f : XForm) : Bool :=
  let aw := f.flags.getLsbD 2
  let rmt := f.flags.getLsbD 3
  f.a.isScalar && (if aw then f.b.ok && (f.b.isScalar || f.b.isLatch || f.b.isConst) else f.b == Src.zero) &&
  f.c == Src.zero && f.bank.extractLsb' 0 8 == 0 && f.flags.extractLsb' 6 4 == 0 &&
  (rmt || f.flags.extractLsb' 4 2 == 0)

/-- Operands of MMA (R253): M register, latch or constant. -/
def Src.mlc (x : Src) : Bool := x.ok && (x.isScalar || x.isLatch || x.isConst)
/-- Operands of SHAPE and the bank instructions (R245, R252): M register, latch, special or
constant. A V register there is a matter of class (R41), so it passes this check. -/
def Src.any (x : Src) : Bool := x.ok

/-- Origin of MMA (R253): M register or constant 0. -/
def Src.origin (x : Src) : Bool := x.isScalar || x == Src.const0

/-- A handle operand of MMA: V registers are left to the class check (R41). -/
def Src.matrixOperand (x : Src) : Bool := x.isV || x.mlc

/-- System acts (R315, R319): SRC a scalar, SYSID and reserved bits zero. -/
def YForm.act (f : YForm) : Bool :=
  f.dst.vs && f.src.isScalar && f.sysid == 0 && f.res == 0

/-- Fields of FENCE (R205, R38): scope code 0 to 8, other modifier bits zero. -/
def VForm.fenceOk (f : VForm) : Bool :=
  f.dst == Dst.zero && f.srcs false false false && f.rnd == 0 && !f.sat &&
  (f.moda ++ f.modb).toNat ≤ 8

/-- FMTSET immediates accepted by R150: AFMT and BFMT at most 4, bit 0 zero. -/
def fmtOk (x : Word) : Bool :=
  (x.extractLsb' 28 4).toNat ≤ 4 && (x.extractLsb' 24 4).toNat ≤ 4 && !x.getLsbD 0

/-- CVT's fields by minor (R160). -/
def CvtOp.fieldsOk (m : CvtOp) (f : VForm) : Bool :=
  f.dst.vs &&
  match m with
  | .f32f16 | .f32bf16 => f.srcs true false false && f.mods true true true false
  | .f16f32 | .bf16f32 => f.srcs true false false && f.mods false false false false
  | .f32s32 | .f32z32 => f.srcs true false false && f.mods true false true false
  | .s32f32 | .z32f32 => f.srcs true false false && f.mods true false false false
  | .f32lns => f.srcs true true true && f.mods true false true false
  | .lnsf32 => f.srcs true true false && f.mods true false false false
  | .bf16f16 | .f16bf16 => f.srcs true false false && f.mods true true false false
  | .f16x2 | .bf16x2 => f.srcs true true false && f.mods true true true true

/-- Entries with one source and no modifier. -/
def VForm.un (f : VForm) : Bool := f.dst.vs && f.srcs true false false && f.noMods

/-- Entries whose every field is zero except PRED (R108, R109). -/
def VForm.bare (f : VForm) : Bool := f.dst == Dst.zero && f.srcs false false false && f.noMods

def XForm.noTail (f : XForm) : Bool := f.bank == 0 && f.flags == 0

/-- The check of R32 and of each entry's fields, for every instruction. The event rows carry no
word; their check is that the parts of the device they name exist (R2, R328). -/
def Instr.wellFormed : Instr → Bool
  | .iadd _ f | .isub _ f | .imul f | .imulh _ f | .imin _ f | .imax _ f => f.int true true false
  | .imad _ f | .bfi f | .sel f => f.int true true true
  | .iabs f | .popc f | .clz f | .brev f | .mov f => f.int true false false
  | .and f | .or f | .xor f | .andn f | .shl f | .shr f | .sar f | .rol f | .bfe _ f => f.int true true false
  | .icmp _ f => f.srcs true true false && f.noMods && f.dst.vp
  | .movi f => f.dst.vs && f.a == Src.zero
  | .plop f =>
    f.dst.vp && f.noMods && f.c == Src.zero && f.a.isV &&
    (match f.b with | .v i => i.toNat < 256 | _ => false)
  | .dot4 _ f => f.dst.vs && f.srcs true true true && f.mods false true false false
  | .fadd f | .fsub f | .fmul f => f.dst.vs && f.srcs true true false && f.mods true true true true
  | .ffma f => f.dst.vs && f.srcs true true true && f.mods true true true true
  | .fmin f | .fmax f => f.dst.vs && f.srcs true true false && f.mods false false true true
  | .fcmp _ f => f.dst.vp && f.srcs true true false && f.mods false false true true
  | .frnd _ f => f.dst.vs && f.srcs true false false && f.mods false false true false
  | .fclass f => f.un
  | .frcp f | .frsq f | .fexp2 f | .flog2 f | .fsin f | .fcos f =>
    f.dst.vs && f.srcs true false false && f.mods false false true false
  | .cvt m f => m.fieldsOk f
  | .pkadd _ f | .pkmul _ f => f.dst.vs && f.srcs true true false && f.mods true true true true
  | .pkfma _ f => f.dst.vs && f.srcs true true true && f.mods true true true true
  | .fmtset f => f.dst.vs && f.a == Src.zero && fmtOk f.imm
  | .fmtget f => f.un
  | .lmul f => f.int true true false
  | .lsum f => f.int true true true
  | .shfl _ f => f.dst.vOnly && f.srcs true true true && f.noMods
  | .vote .ballot f => f.dst.sOnly && f.srcs true false false && f.noMods
  | .vote _ f => f.dst.vp && f.srcs true false false && f.noMods
  | .redux _ f => f.dst.sOnly && f.srcs true false false && f.noMods
  | .ldb m f =>
    f.data.supOk && (!f.data.kind || m == .w32 || m == .bcast) && f.addr.ok && f.coord == Src.zero &&
    f.scope.toNat ≤ 2 && !f.stream
  | .stb _ f =>
    !f.top && f.data.ok && f.addr.ok && f.coord == Src.zero && f.scope.toNat ≤ 2 && !f.stream
  | .spill f => f.dst == Dst.zero && f.a.isV && use true f.b && use true f.c && f.noMods
  | .fill f => !f.dst.sup && !f.dst.kind && f.srcs true true false && f.noMods
  | .hbind f | .hinv f => f.un
  | .hinfo f => f.dst.vs && f.srcs true true false && f.noMods
  | .ldt f => f.data.vs && f.addr.ok && (f.coord.isV || f.coord.isScalar) && f.scope.toNat ≤ 8
  | .stt f => !f.top && f.data.ok && f.addr.ok && (f.coord.isV || f.coord.isScalar) && f.scope.toNat ≤ 8
  | .ldg m f =>
    f.data.supOk && (!f.data.kind || m == .w32) && f.addr.ok && f.coord == Src.zero && f.scope.toNat ≤ 8
  | .stg _ f => !f.top && f.data.ok && f.addr.ok && f.coord == Src.zero && f.scope.toNat ≤ 8
  | .atom _ f | .cas f => f.data.vs && f.addr.ok && f.coord.ok && f.scope.toNat ≤ 8 && !f.stream
  | .lr f =>
    f.data.vs && f.addr.ok && f.coord == Src.zero && 3 ≤ f.scope.toNat && f.scope.toNat ≤ 8 && !f.stream
  | .sc f => f.data.vs && f.addr.ok && f.coord.ok && 3 ≤ f.scope.toNat && f.scope.toNat ≤ 8 && !f.stream
  | .pref f =>
    f.data == Dst.zero && f.addr.ok && f.coord == Src.zero && (f.scope == 2 || f.scope == 4) && !f.stream
  | .fence _ f => f.fenceOk
  | .arm f =>
    f.data.vs && f.addr.ok && f.coord == Src.zero && 3 ≤ f.scope.toNat && f.scope.toNat ≤ 8 && !f.stream
  | .waitm f | .time f => f.un
  | .cpy f | .gath f | .scat f => f.copyOk
  | .coll _ f =>
    f.a.isScalar && f.b.ok && (f.b.isScalar || f.b.isLatch || f.b.isConst) && f.c == Src.zero &&
    f.bank.extractLsb' 0 8 == 0 && f.flags.extractLsb' 2 8 == 0
  | .ftest f | .fwait f | .fcancel f => f.future
  | .awinit f | .await f | .awadd f => f.dst.vs && f.srcs true true false && f.noMods
  | .fork f =>
    (f.a.isScalar || f.a == Src.const0) && (f.b.isScalar || f.b == Src.const0) && f.c == Src.zero &&
    f.bank.extractLsb' 0 4 == 0 && f.flags.extractLsb' 2 8 == 0
  | .rdv f => f.dst == Dst.zero && f.srcs true false false && f.noMods
  | .br _ f | .call f => f.direct
  | .bra f => f.direct && f.pred == Prd.always && f.hint == 0
  | .jmpi f | .calli f => f.indirect
  | .ret f => f.indirect && f.indir == Src.zero
  | .plbr f => f.base && f.kidx == 0 && f.targetOk && f.indir.ok && f.hintOk
  | .kset f => f.kform
  | .join f | .joinw f => f.kform && f.pred == Prd.always
  | .plset f | .wdog f | .wid f | .sleep f => f.un
  | .exit f | .nop f | .yield f => f.bare
  | .spawn m f =>
    f.a.isScalar && f.b.ok && !f.b.isSpecial && f.noTail &&
    (match m with
     | .plain => f.c == Src.zero
     | .payload => f.c.ok && !f.c.isSpecial && !f.c.isConst)
  | .launch f | .launchNode f =>
    f.a.ok && f.b.ok && (f.a.isScalar || f.a.isConst) && (f.b.isScalar || f.b.isConst) &&
    f.c == Src.zero && f.noTail
  | .barArrive f | .barSync f => f.dst == Dst.zero && f.srcs true true false && f.noMods
  | .barWait f => f.dst == Dst.zero && f.srcs true false false && f.noMods
  | .feedpop _ f => f.dst.sOnly && f.srcs false false false && f.noMods
  | .feedpush f => f.dst.sOnly && f.a.isScalar && f.srcs true true false && f.noMods
  | .pairBind f => f.dst.vs && f.srcs true true true && f.noMods
  | .pairUnbind f => f.dst.vs && f.srcs true false false && f.noMods
  | .shape f => f.a.any && f.b.any && f.c.any && f.noTail
  | .aballoc f => (f.a.isV || f.a.isScalar) && f.b.any && f.c == Src.zero && f.noTail
  | .abfree f | .aclr f => f.a.any && f.b.any && f.c == Src.zero && f.noTail
  | .abgrant f => f.a.any && f.b.any && f.c.any && !f.bank.getLsbD 0 && f.flags.extractLsb' 1 9 == 0
  | .abgrantRevoke f =>
    f.a == Src.zero && f.b.any && f.c == Src.zero && f.bank.extractLsb' 0 1 == 0 &&
    f.bank.extractLsb' 4 8 == 0 && f.flags == 2
  | .mma m f =>
    f.a.matrixOperand && f.b.matrixOperand && (f.c.isV || f.c.origin) && f.bank.extractLsb' 0 7 == 0 &&
    f.flags.extractLsb' 2 8 == 0 && (m == .int || !f.flags.getLsbD 1)
  | .mmap m f =>
    (f.a.isV || f.a.isScalar) && f.b.matrixOperand && (f.c.isV || f.c.origin) &&
    f.bank.extractLsb' 0 4 == 0 && f.flags.extractLsb' 2 8 == 0 && (m == .int || !f.flags.getLsbD 1)
  | .guide f =>
    f.a.matrixOperand && f.b.any && f.c == Src.zero && f.bank.extractLsb' 0 4 == 0 &&
    f.flags.extractLsb' 1 9 == 0
  | .sfence f => f.a == Src.zero && f.b == Src.zero && f.c == Src.zero && f.noTail
  | .ard f | .awr f => f.a.isV && f.b.ok && f.c.ok && f.bank == 0 && f.flags.extractLsb' 6 4 == 0
  | .trbp f => f.a.isV && f.b.ok && f.c == Src.zero && f.noTail
  | .trap f => f.dst == Dst.zero && f.src.ok && f.res == 0
  | .tret f => f.dst == Dst.zero && f.src.ok && f.sysid == 0 && f.res == 0
  | .rdsr f => f.dst.vs && f.src.ok && sysidOk f.sysid && f.res == 0
  | .wrsr f => !f.top && f.ctx.ok && f.src.ok && sysidOk f.sysid && f.res == 0
  | .place f | .placeRestore f | .evict f | .evictDestroy f | .evictSeal f | .evictDiscard f => f.act
  | .keybind f | .gswitchSave f | .gswitchRestore f => f.act
  | .cntrd f => f.dst.vs && f.src.ok && f.sysid.toNat ≤ 0x12 && f.res == 0
  | .bktrd f => f.dst.vs && f.src.ok && f.sysid.toNat ≤ 2 && f.res == 0
  | .bsad4 _ => true
  | .clauseIssue | .fairHoldExpire _ | .watchdog _ | .storeCommit _ _ | .copyGrant _ _ => true
  | .loadPerform _ _ _ | .waitmTimeout _ | .sleepTimeout _ | .evictionComplete _ => true
  | .engineSourceRead o _ | .engineSectorCommit o _ | .engineScratchLand o _ | .engineOpDone o => o.cluster ≤ 72
  | .engineOpFault o _ => o.cluster ≤ 72
  | .arrayOpStart c | .arrayOpComplete c _ | .pairWaitExpire c => c < 72
  | .seedbedTimer c _ _ | .blockAdmit c | .eccScrub c | .coreControlError c => c < 288
  | .groupRelease _ | .launchComplete _ | .stalledAccessRetry _ _ => true
  | .tinvStage1 _ _ _ | .tinvStage2 _ _ _ | .htabWrite _ _ _ | .registerWrite _ => true
  | .packetSend p v | .packetDiscard p v _ => p < 12 && v < 4
  | .packetDeliver (.arrive p k) => p < 12 && k.vc < 4 && k.payload.length ≤ 4096
  | .packetDeliver (.commit p v) => p < 12 && v < 4
  | .linkFault p | .flitReplay p | .linkRetrainComplete p _ => p < 12
  | .ptpMessage _ | .offsetReport _ _ | .offsetReportSend | .timebadSet | .timebadClear => true
  | .gswitchWindowStart _ | .gswitchSeal _ | .gswitchWindfallSeal _ | .gswitchReinject _ | .gswitchResume _ => true
  | .nopPacket q | .kernelPacket q | .graphPacket q | .waitallPacket q | .waitanyPacket q | .waitPoll q => q.part < 16
  | .signalPacket q | .feedPacket q | .copyPacket q | .fencePacket q | .packetComplete q _ => q.part < 16
  | .doorbellWrite q | .waitQuantum q | .queueDrained q => q.part < 16
  | .wakeIntervalEnd _ | .mapTick | .watchListEval | .graphNodeComplete _ _ | .graphRunEnd _ => true
  | .bucketTick | .sliceEnd _ | .heartwoodCheckpoint | .heartwoodMismatch | .powerManagerTick _ => true
  | .qcreate n | .qreset n | .qdestroy n | .qpin n | .pasiddrain n | .gangjoin n | .pathset n | .partset n => n < 16
  | .resetCore n | .resetDie n | .resetDevice n | .timeset n => n < 16
  | .pasidRelease _ | .firmwareWatchdog | .powerGood _ | .keybindRequest _ => true
  | .dieControlError d | .dieOvertemp d => d < 4
  | .getCertificate | .challenge | .getMeasurements | .keyExchange | .finish | .meas7Extend _ => true
  | .firmwareUpdate _ _ _ | .hostMemWrite _ _ | .hostMemRead _ _ | .hostSnoopInvalidate _ _ => true
  | .hostStoreAck _ _ | .discardReportArrival _ | .atsTranslationResponse _ => true

/-- The proposition form of the check. -/
abbrev Instr.WF (i : Instr) : Prop := i.wellFormed = true

end Sys2Proof
end

