-- ==== Sys2Proof/Decode.lean ====
section
/-! DEFINITION. From a 64-bit instruction word to an instruction (R32, R33, R36, R37, R39, R47, R49) and
back. `parse` reads the major, the minor and every field; `decode` also demands the fields R32 wants
zero. The clause header's fields (R28) are read here too. -/

namespace Sys2Proof

/-! ## Fields of a word -/

/-- Bits [lo+n-1 : lo]. -/
def fld (w : DWord) (lo n : Nat) : BitVec n := w.extractLsb' lo n

/-- A source field from its ten bits (R39). -/
def Src.ofBits (x : BitVec 10) : Src :=
  if x.getLsbD 9 then
    if x.getLsbD 8 then
      if x.getLsbD 7 then .const (x.extractLsb' 0 7) else .special (x.extractLsb' 0 7)
    else
      if x.getLsbD 7 then .scalar (x.extractLsb' 0 7) else .latch (x.extractLsb' 0 7)
  else .v (x.extractLsb' 0 9)

/-- The ten bits of a source field (R39). -/
def Src.bits : Src → BitVec 10
  | .v i => 0#1 ++ i
  | .latch i => 4#3 ++ i
  | .scalar i => 5#3 ++ i
  | .special i => 6#3 ++ i
  | .const i => 7#3 ++ i

def Dst.ofBits (x : BitVec 11) : Dst := ⟨x.getLsbD 10, x.getLsbD 9, x.extractLsb' 0 9⟩
def Dst.bits (d : Dst) : BitVec 11 := BitVec.ofBool d.sup ++ (BitVec.ofBool d.kind ++ d.idx)
def Prd.ofBits (x : BitVec 4) : Prd := ⟨x.getLsbD 3, x.extractLsb' 0 3⟩
def Prd.bits (p : Prd) : BitVec 4 := BitVec.ofBool p.neg ++ p.idx

/-- Major opcode [63:56] (R32). -/
def majorOf (w : DWord) : Nat := (fld w 56 8).toNat
/-- Minor [55:52] (R32). -/
def minorOf (w : DWord) : Nat := (fld w 52 4).toNat
/-- Minor of format I, [55:53] (R32). -/
def minorI (w : DWord) : Nat := (fld w 53 3).toNat

def vOf (w : DWord) : VForm :=
  { dst := Dst.ofBits (fld w 41 11), a := Src.ofBits (fld w 31 10), b := Src.ofBits (fld w 21 10),
    c := Src.ofBits (fld w 11 10), pred := Prd.ofBits (fld w 7 4), rnd := fld w 5 2, sat := w.getLsbD 4,
    moda := fld w 2 2, modb := fld w 0 2 }

def iOf (w : DWord) : IForm :=
  { dst := Dst.ofBits (fld w 42 11), a := Src.ofBits (fld w 32 10), imm := fld w 0 32 }

def mOf (w : DWord) : MForm :=
  { data := Dst.ofBits (fld w 41 11), addr := Src.ofBits (fld w 31 10), coord := Src.ofBits (fld w 21 10),
    pred := Prd.ofBits (fld w 17 4), offs := fld w 5 12, scope := fld w 1 4, stream := w.getLsbD 0 }

def sOf (w : DWord) : SForm :=
  { top := w.getLsbD 51, data := Src.ofBits (fld w 41 10), addr := Src.ofBits (fld w 31 10),
    coord := Src.ofBits (fld w 21 10), pred := Prd.ofBits (fld w 17 4), offs := fld w 5 12,
    scope := fld w 1 4, stream := w.getLsbD 0 }

def bOf (w : DWord) : BForm :=
  { pred := Prd.ofBits (fld w 48 4), kidx := fld w 45 3, target := fld w 13 32,
    indir := Src.ofBits (fld w 3 10), hint := fld w 1 2, res := w.getLsbD 0 }

def xOf (w : DWord) : XForm :=
  { a := Src.ofBits (fld w 42 10), b := Src.ofBits (fld w 32 10), c := Src.ofBits (fld w 22 10),
    bank := fld w 10 12, flags := fld w 0 10 }

def yOf (w : DWord) : YForm :=
  { dst := Dst.ofBits (fld w 41 11), src := Src.ofBits (fld w 31 10), sysid := fld w 15 16, res := fld w 0 15 }

def ywOf (w : DWord) : YWForm :=
  { top := w.getLsbD 51, ctx := Src.ofBits (fld w 41 10), src := Src.ofBits (fld w 31 10),
    sysid := fld w 15 16, res := fld w 0 15 }

/-! ## Minors (R47) -/

def SatMode.minor : SatMode → Nat
  | .wrap => 0
  | .ssat => 1
  | .usat => 2
def SatMode.ofMinor? (m : Nat) : Option SatMode :=
  match m with
  | 0 => some .wrap
  | 1 => some .ssat
  | 2 => some .usat
  | _ => none
def Sgn.minor : Sgn → Nat
  | .s => 0
  | .z => 1
def Sgn.ofMinor? (m : Nat) : Option Sgn :=
  match m with
  | 0 => some .s
  | 1 => some .z
  | _ => none
def Ext.minor : Ext → Nat
  | .z => 0
  | .s => 1
def Ext.ofMinor? (m : Nat) : Option Ext :=
  match m with
  | 0 => some .z
  | 1 => some .s
  | _ => none
def MadMode.minor : MadMode → Nat
  | .wrap => 0
  | .ssat => 1
def MadMode.ofMinor? (m : Nat) : Option MadMode :=
  match m with
  | 0 => some .wrap
  | 1 => some .ssat
  | _ => none
def ICond.minor : ICond → Nat
  | .eq => 0
  | .ne => 1
  | .lt => 2
  | .le => 3
  | .gt => 4
  | .ge => 5
  | .ltz => 6
  | .lez => 7
  | .gtz => 8
  | .gez => 9
def ICond.ofMinor? (m : Nat) : Option ICond :=
  match m with
  | 0 => some .eq
  | 1 => some .ne
  | 2 => some .lt
  | 3 => some .le
  | 4 => some .gt
  | 5 => some .ge
  | 6 => some .ltz
  | 7 => some .lez
  | 8 => some .gtz
  | 9 => some .gez
  | _ => none
def FCond.minor : FCond → Nat
  | .eq => 0
  | .ne => 1
  | .lt => 2
  | .le => 3
  | .gt => 4
  | .ge => 5
  | .num => 6
  | .nan => 7
def FCond.ofMinor? (m : Nat) : Option FCond :=
  match m with
  | 0 => some .eq
  | 1 => some .ne
  | 2 => some .lt
  | 3 => some .le
  | 4 => some .gt
  | 5 => some .ge
  | 6 => some .num
  | 7 => some .nan
  | _ => none
def Rnd.minor : Rnd → Nat
  | .rne => 0
  | .rz => 1
  | .up => 2
  | .down => 3
def Rnd.ofMinor? (m : Nat) : Option Rnd :=
  match m with
  | 0 => some .rne
  | 1 => some .rz
  | 2 => some .up
  | 3 => some .down
  | _ => none
def CvtOp.minor : CvtOp → Nat
  | .f32f16 => 0
  | .f32bf16 => 1
  | .f16f32 => 2
  | .bf16f32 => 3
  | .f32s32 => 4
  | .f32z32 => 5
  | .s32f32 => 6
  | .z32f32 => 7
  | .f32lns => 8
  | .lnsf32 => 9
  | .bf16f16 => 10
  | .f16bf16 => 11
  | .f16x2 => 12
  | .bf16x2 => 13
def CvtOp.ofMinor? (m : Nat) : Option CvtOp :=
  match m with
  | 0 => some .f32f16
  | 1 => some .f32bf16
  | 2 => some .f16f32
  | 3 => some .bf16f32
  | 4 => some .f32s32
  | 5 => some .f32z32
  | 6 => some .s32f32
  | 7 => some .z32f32
  | 8 => some .f32lns
  | 9 => some .lnsf32
  | 10 => some .bf16f16
  | 11 => some .f16bf16
  | 12 => some .f16x2
  | 13 => some .bf16x2
  | _ => none
def Half.minor : Half → Nat
  | .f16 => 0
  | .bf16 => 1
def Half.ofMinor? (m : Nat) : Option Half :=
  match m with
  | 0 => some .f16
  | 1 => some .bf16
  | _ => none
def ShflOp.minor : ShflOp → Nat
  | .idx => 0
  | .up => 1
  | .down => 2
  | .xor => 3
def ShflOp.ofMinor? (m : Nat) : Option ShflOp :=
  match m with
  | 0 => some .idx
  | 1 => some .up
  | 2 => some .down
  | 3 => some .xor
  | _ => none
def VoteOp.minor : VoteOp → Nat
  | .all => 0
  | .any => 1
  | .ballot => 2
def VoteOp.ofMinor? (m : Nat) : Option VoteOp :=
  match m with
  | 0 => some .all
  | 1 => some .any
  | 2 => some .ballot
  | _ => none
def ReduxOp.minor : ReduxOp → Nat
  | .add => 0
  | .min => 1
  | .max => 2
  | .and => 3
  | .or => 4
def ReduxOp.ofMinor? (m : Nat) : Option ReduxOp :=
  match m with
  | 0 => some .add
  | 1 => some .min
  | 2 => some .max
  | 3 => some .and
  | 4 => some .or
  | _ => none
def LdbW.minor : LdbW → Nat
  | .w32 => 0
  | .w64 => 1
  | .w128 => 2
  | .bcast => 3
def LdbW.ofMinor? (m : Nat) : Option LdbW :=
  match m with
  | 0 => some .w32
  | 1 => some .w64
  | 2 => some .w128
  | 3 => some .bcast
  | _ => none
def Width3.minor : Width3 → Nat
  | .w32 => 0
  | .w64 => 1
  | .w128 => 2
def Width3.ofMinor? (m : Nat) : Option Width3 :=
  match m with
  | 0 => some .w32
  | 1 => some .w64
  | 2 => some .w128
  | _ => none
def AtomOp.minor : AtomOp → Nat
  | .add => 0
  | .min => 1
  | .max => 2
  | .and => 3
  | .or => 4
  | .xor => 5
  | .exch => 6
  | .fadd => 7
def AtomOp.ofMinor? (m : Nat) : Option AtomOp :=
  match m with
  | 0 => some .add
  | 1 => some .min
  | 2 => some .max
  | 3 => some .and
  | 4 => some .or
  | 5 => some .xor
  | 6 => some .exch
  | 7 => some .fadd
  | _ => none
def FenceKind.minor : FenceKind → Nat
  | .acq => 0
  | .rel => 1
  | .full => 2
def FenceKind.ofMinor? (m : Nat) : Option FenceKind :=
  match m with
  | 0 => some .acq
  | 1 => some .rel
  | 2 => some .full
  | _ => none
def CollOp.minor : CollOp → Nat
  | .allReduceSum => 0
  | .allGather => 1
  | .reduceScatter => 2
  | .broadcast => 3
def CollOp.ofMinor? (m : Nat) : Option CollOp :=
  match m with
  | 0 => some .allReduceSum
  | 1 => some .allGather
  | 2 => some .reduceScatter
  | 3 => some .broadcast
  | _ => none
def BrKind.minor : BrKind → Nat
  | .divergent => 0
  | .uniform => 1
def BrKind.ofMinor? (m : Nat) : Option BrKind :=
  match m with
  | 0 => some .divergent
  | 1 => some .uniform
  | _ => none
def SpawnKind.minor : SpawnKind → Nat
  | .plain => 0
  | .payload => 1
def SpawnKind.ofMinor? (m : Nat) : Option SpawnKind :=
  match m with
  | 0 => some .plain
  | 1 => some .payload
  | _ => none
def PopKind.minor : PopKind → Nat
  | .blocking => 0
  | .nonBlocking => 1
def PopKind.ofMinor? (m : Nat) : Option PopKind :=
  match m with
  | 0 => some .blocking
  | 1 => some .nonBlocking
  | _ => none
def MmaFmt.minor : MmaFmt → Nat
  | .bf16 => 0
  | .f16 => 1
  | .int => 2
  | .lns6 => 3
def MmaFmt.ofMinor? (m : Nat) : Option MmaFmt :=
  match m with
  | 0 => some .bf16
  | 1 => some .f16
  | 2 => some .int
  | 3 => some .lns6
  | _ => none
/-- The only minor, 0. -/
def one (m : Nat) (i : Instr) : Option Instr := if m = 0 then some i else none
/-- Minors 0, 1, ... in the order of R47. -/
def pick (l : List Instr) (m : Nat) : Option Instr := l[m]?

/-- The instruction a word names, given its minor and its major (R47), every field kept as it stands. -/
def parseMajor (w : DWord) (m : Nat) : Nat → Option Instr
  | 0x00 => (SatMode.ofMinor? m).map (.iadd · (vOf w))
  | 0x01 => (SatMode.ofMinor? m).map (.isub · (vOf w))
  | 0x02 => one m (.imul (vOf w))
  | 0x03 => (Sgn.ofMinor? m).map (.imulh · (vOf w))
  | 0x04 => (MadMode.ofMinor? m).map (.imad · (vOf w))
  | 0x05 => (Sgn.ofMinor? m).map (.imin · (vOf w))
  | 0x06 => (Sgn.ofMinor? m).map (.imax · (vOf w))
  | 0x07 => one m (.iabs (vOf w))
  | 0x08 => pick [.and (vOf w), .or (vOf w), .xor (vOf w), .andn (vOf w)] m
  | 0x09 => one m (.shl (vOf w))
  | 0x0A => one m (.shr (vOf w))
  | 0x0B => one m (.sar (vOf w))
  | 0x0C => one m (.rol (vOf w))
  | 0x0D => one m (.popc (vOf w))
  | 0x0E => one m (.clz (vOf w))
  | 0x0F => one m (.brev (vOf w))
  | 0x10 => (Ext.ofMinor? m).map (.bfe · (vOf w))
  | 0x11 => one m (.bfi (vOf w))
  | 0x12 => (ICond.ofMinor? m).map (.icmp · (vOf w))
  | 0x13 => one m (.sel (vOf w))
  | 0x14 => one m (.mov (vOf w))
  | 0x15 => one (minorI w) (.movi (iOf w))
  | 0x16 => one m (.plop (vOf w))
  | 0x17 => (Sgn.ofMinor? m).map (.dot4 · (vOf w))
  | 0x20 => one m (.fadd (vOf w))
  | 0x21 => one m (.fsub (vOf w))
  | 0x22 => one m (.fmul (vOf w))
  | 0x23 => one m (.ffma (vOf w))
  | 0x24 => one m (.fmin (vOf w))
  | 0x25 => one m (.fmax (vOf w))
  | 0x26 => (FCond.ofMinor? m).map (.fcmp · (vOf w))
  | 0x27 => (Rnd.ofMinor? m).map (.frnd · (vOf w))
  | 0x28 => one m (.fclass (vOf w))
  | 0x29 => pick [.frcp (vOf w), .frsq (vOf w), .fexp2 (vOf w), .flog2 (vOf w), .fsin (vOf w), .fcos (vOf w)] m
  | 0x2A => (CvtOp.ofMinor? m).map (.cvt · (vOf w))
  | 0x2B => (Half.ofMinor? m).map (.pkadd · (vOf w))
  | 0x2C => (Half.ofMinor? m).map (.pkmul · (vOf w))
  | 0x2D => (Half.ofMinor? m).map (.pkfma · (vOf w))
  | 0x2E => one (minorI w) (.fmtset (iOf w))
  | 0x2F => one m (.fmtget (vOf w))
  | 0x30 => one m (.lmul (vOf w))
  | 0x31 => one m (.lsum (vOf w))
  | 0x50 => (ShflOp.ofMinor? m).map (.shfl · (vOf w))
  | 0x51 => (VoteOp.ofMinor? m).map (.vote · (vOf w))
  | 0x52 => (ReduxOp.ofMinor? m).map (.redux · (vOf w))
  | 0x60 => (LdbW.ofMinor? m).map (.ldb · (mOf w))
  | 0x61 => (Width3.ofMinor? m).map (.stb · (sOf w))
  | 0x62 => one m (.spill (vOf w))
  | 0x63 => one m (.fill (vOf w))
  | 0x70 => one m (.hbind (vOf w))
  | 0x71 => one m (.hinfo (vOf w))
  | 0x72 => one m (.hinv (vOf w))
  | 0x73 => one m (.ldt (mOf w))
  | 0x74 => one m (.stt (sOf w))
  | 0x75 => (Width3.ofMinor? m).map (.ldg · (mOf w))
  | 0x76 => (Width3.ofMinor? m).map (.stg · (sOf w))
  | 0x77 => (AtomOp.ofMinor? m).map (.atom · (mOf w))
  | 0x78 => one m (.cas (mOf w))
  | 0x79 => one m (.lr (mOf w))
  | 0x7A => one m (.sc (mOf w))
  | 0x7B => one m (.pref (mOf w))
  | 0x80 => (FenceKind.ofMinor? m).map (.fence · (vOf w))
  | 0x81 => one m (.arm (mOf w))
  | 0x82 => one m (.waitm (vOf w))
  | 0x83 => one m (.time (vOf w))
  | 0x84 => one m (.cpy (xOf w))
  | 0x85 => one m (.gath (xOf w))
  | 0x86 => one m (.scat (xOf w))
  | 0x87 => (CollOp.ofMinor? m).map (.coll · (xOf w))
  | 0x88 => one m (.ftest (vOf w))
  | 0x89 => one m (.fwait (vOf w))
  | 0x8A => one m (.fcancel (vOf w))
  | 0x8B => one m (.awinit (vOf w))
  | 0x8C => one m (.await (vOf w))
  | 0x8D => one m (.awadd (vOf w))
  | 0x8E => one m (.fork (xOf w))
  | 0x8F => one m (.rdv (vOf w))
  | 0x90 => (BrKind.ofMinor? m).map (.br · (bOf w))
  | 0x91 => one m (.bra (bOf w))
  | 0x92 => one m (.jmpi (bOf w))
  | 0x93 => one m (.call (bOf w))
  | 0x94 => one m (.calli (bOf w))
  | 0x95 => one m (.ret (bOf w))
  | 0x96 => one m (.kset (bOf w))
  | 0x97 => pick [.join (bOf w), .joinw (bOf w)] m
  | 0x98 => one m (.plset (vOf w))
  | 0x99 => one m (.plbr (bOf w))
  | 0x9A => one m (.exit (vOf w))
  | 0x9B => one m (.nop (vOf w))
  | 0x9C => one m (.yield (vOf w))
  | 0x9D => one m (.wdog (vOf w))
  | 0xA0 => (SpawnKind.ofMinor? m).map (.spawn · (xOf w))
  | 0xA1 => pick [.launch (xOf w), .launchNode (xOf w)] m
  | 0xA2 => one m (.wid (vOf w))
  | 0xA3 => pick [.barArrive (vOf w), .barWait (vOf w), .barSync (vOf w)] m
  | 0xA4 => (PopKind.ofMinor? m).map (.feedpop · (vOf w))
  | 0xA5 => one m (.feedpush (vOf w))
  | 0xA6 => one m (.sleep (vOf w))
  | 0xA7 => pick [.pairBind (vOf w), .pairUnbind (vOf w)] m
  | 0xB0 => one m (.shape (xOf w))
  | 0xB1 => one m (.aballoc (xOf w))
  | 0xB2 => one m (.abfree (xOf w))
  | 0xB3 => one m (if (xOf w).flags.getLsbD 1 then .abgrantRevoke (xOf w) else .abgrant (xOf w))
  | 0xB4 => (MmaFmt.ofMinor? m).map (.mma · (xOf w))
  | 0xB5 => (MmaFmt.ofMinor? m).map (.mmap · (xOf w))
  | 0xB6 => one m (.guide (xOf w))
  | 0xB7 => one m (.aclr (xOf w))
  | 0xB8 => one m (.sfence (xOf w))
  | 0xB9 => one m (.ard (xOf w))
  | 0xBA => one m (.awr (xOf w))
  | 0xBB => one m (.trbp (xOf w))
  | 0xD0 => one m (.trap (yOf w))
  | 0xD1 => one m (.tret (yOf w))
  | 0xD2 => one m (.rdsr (yOf w))
  | 0xD3 => one m (.wrsr (ywOf w))
  | 0xD4 => pick [.place (yOf w), .placeRestore (yOf w)] m
  | 0xD5 => pick [.evict (yOf w), .evictDestroy (yOf w), .evictSeal (yOf w), .evictDiscard (yOf w)] m
  | 0xD6 => one m (.cntrd (yOf w))
  | 0xD7 => one m (.bktrd (yOf w))
  | 0xD8 => one m (.keybind (yOf w))
  | 0xD9 => pick [.gswitchSave (yOf w), .gswitchRestore (yOf w)] m
  | 0xE4 => one m (.bsad4 (vOf w))
  | _ => none

/-- The instruction a word names (R47). None: the major is reserved or the minor is unlisted, or the word
has a header's tag (R49). -/
def parse (w : DWord) : Option Instr := parseMajor w (minorOf w) (majorOf w)

/-- What a word in a slot is (R49). -/
inductive Decoded where
  | ok (i : Instr)
  | reserved (i : Instr)   -- a reserved, unused or unread field is not zero
  | opcode                 -- reserved major or unlisted minor
  | tagInSlot              -- major 0xF0 to 0xFF
  deriving DecidableEq, Repr

/-- Decoding of a slot's word, total on any bits. -/
def decode (w : DWord) : Decoded :=
  if 0xF0 ≤ majorOf w then .tagInSlot
  else match parse w with
    | none => .opcode
    | some i => if i.wellFormed then .ok i else .reserved i

/-! ## Encoding -/

def packV (maj mn : Nat) (f : VForm) : DWord :=
  BitVec.ofNat 8 maj ++ (BitVec.ofNat 4 mn ++ (f.dst.bits ++ (f.a.bits ++ (f.b.bits ++ (f.c.bits ++ (f.pred.bits ++
    (f.rnd ++ (BitVec.ofBool f.sat ++ (f.moda ++ f.modb)))))))))

def packI (maj mn : Nat) (f : IForm) : DWord :=
  BitVec.ofNat 8 maj ++ (BitVec.ofNat 3 mn ++ (f.dst.bits ++ (f.a.bits ++ f.imm)))

def packM (maj mn : Nat) (f : MForm) : DWord :=
  BitVec.ofNat 8 maj ++ (BitVec.ofNat 4 mn ++ (f.data.bits ++ (f.addr.bits ++ (f.coord.bits ++ (f.pred.bits ++
    (f.offs ++ (f.scope ++ BitVec.ofBool f.stream)))))))

def packS (maj mn : Nat) (f : SForm) : DWord :=
  BitVec.ofNat 8 maj ++ (BitVec.ofNat 4 mn ++ (BitVec.ofBool f.top ++ (f.data.bits ++ (f.addr.bits ++ (f.coord.bits ++
    (f.pred.bits ++ (f.offs ++ (f.scope ++ BitVec.ofBool f.stream))))))))

def packB (maj mn : Nat) (f : BForm) : DWord :=
  BitVec.ofNat 8 maj ++ (BitVec.ofNat 4 mn ++ (f.pred.bits ++ (f.kidx ++ (f.target ++ (f.indir.bits ++
    (f.hint ++ BitVec.ofBool f.res))))))

def packX (maj mn : Nat) (f : XForm) : DWord :=
  BitVec.ofNat 8 maj ++ (BitVec.ofNat 4 mn ++ (f.a.bits ++ (f.b.bits ++ (f.c.bits ++ (f.bank ++ f.flags)))))

def packY (maj mn : Nat) (f : YForm) : DWord :=
  BitVec.ofNat 8 maj ++ (BitVec.ofNat 4 mn ++ (f.dst.bits ++ (f.src.bits ++ (f.sysid ++ f.res))))

def packYW (maj mn : Nat) (f : YWForm) : DWord :=
  BitVec.ofNat 8 maj ++ (BitVec.ofNat 4 mn ++ (BitVec.ofBool f.top ++ (f.ctx.bits ++ (f.src.bits ++ (f.sysid ++ f.res)))))

/-- The word of an instruction, written from the same tables (R33, R36, R47). Event rows have none. -/
def encode? : Instr → Option DWord
  | .iadd k f => some (packV 0x00 k.minor f)
  | .isub k f => some (packV 0x01 k.minor f)
  | .imul f => some (packV 0x02 0 f)
  | .imulh k f => some (packV 0x03 k.minor f)
  | .imad k f => some (packV 0x04 k.minor f)
  | .imin k f => some (packV 0x05 k.minor f)
  | .imax k f => some (packV 0x06 k.minor f)
  | .iabs f => some (packV 0x07 0 f)
  | .and f => some (packV 0x08 0 f)
  | .or f => some (packV 0x08 1 f)
  | .xor f => some (packV 0x08 2 f)
  | .andn f => some (packV 0x08 3 f)
  | .shl f => some (packV 0x09 0 f)
  | .shr f => some (packV 0x0A 0 f)
  | .sar f => some (packV 0x0B 0 f)
  | .rol f => some (packV 0x0C 0 f)
  | .popc f => some (packV 0x0D 0 f)
  | .clz f => some (packV 0x0E 0 f)
  | .brev f => some (packV 0x0F 0 f)
  | .bfe k f => some (packV 0x10 k.minor f)
  | .bfi f => some (packV 0x11 0 f)
  | .icmp k f => some (packV 0x12 k.minor f)
  | .sel f => some (packV 0x13 0 f)
  | .mov f => some (packV 0x14 0 f)
  | .movi f => some (packI 0x15 0 f)
  | .plop f => some (packV 0x16 0 f)
  | .dot4 k f => some (packV 0x17 k.minor f)
  | .fadd f => some (packV 0x20 0 f)
  | .fsub f => some (packV 0x21 0 f)
  | .fmul f => some (packV 0x22 0 f)
  | .ffma f => some (packV 0x23 0 f)
  | .fmin f => some (packV 0x24 0 f)
  | .fmax f => some (packV 0x25 0 f)
  | .fcmp k f => some (packV 0x26 k.minor f)
  | .frnd k f => some (packV 0x27 k.minor f)
  | .fclass f => some (packV 0x28 0 f)
  | .frcp f => some (packV 0x29 0 f)
  | .frsq f => some (packV 0x29 1 f)
  | .fexp2 f => some (packV 0x29 2 f)
  | .flog2 f => some (packV 0x29 3 f)
  | .fsin f => some (packV 0x29 4 f)
  | .fcos f => some (packV 0x29 5 f)
  | .cvt k f => some (packV 0x2A k.minor f)
  | .pkadd k f => some (packV 0x2B k.minor f)
  | .pkmul k f => some (packV 0x2C k.minor f)
  | .pkfma k f => some (packV 0x2D k.minor f)
  | .fmtset f => some (packI 0x2E 0 f)
  | .fmtget f => some (packV 0x2F 0 f)
  | .lmul f => some (packV 0x30 0 f)
  | .lsum f => some (packV 0x31 0 f)
  | .shfl k f => some (packV 0x50 k.minor f)
  | .vote k f => some (packV 0x51 k.minor f)
  | .redux k f => some (packV 0x52 k.minor f)
  | .ldb k f => some (packM 0x60 k.minor f)
  | .stb k f => some (packS 0x61 k.minor f)
  | .spill f => some (packV 0x62 0 f)
  | .fill f => some (packV 0x63 0 f)
  | .hbind f => some (packV 0x70 0 f)
  | .hinfo f => some (packV 0x71 0 f)
  | .hinv f => some (packV 0x72 0 f)
  | .ldt f => some (packM 0x73 0 f)
  | .stt f => some (packS 0x74 0 f)
  | .ldg k f => some (packM 0x75 k.minor f)
  | .stg k f => some (packS 0x76 k.minor f)
  | .atom k f => some (packM 0x77 k.minor f)
  | .cas f => some (packM 0x78 0 f)
  | .lr f => some (packM 0x79 0 f)
  | .sc f => some (packM 0x7A 0 f)
  | .pref f => some (packM 0x7B 0 f)
  | .fence k f => some (packV 0x80 k.minor f)
  | .arm f => some (packM 0x81 0 f)
  | .waitm f => some (packV 0x82 0 f)
  | .time f => some (packV 0x83 0 f)
  | .cpy f => some (packX 0x84 0 f)
  | .gath f => some (packX 0x85 0 f)
  | .scat f => some (packX 0x86 0 f)
  | .coll k f => some (packX 0x87 k.minor f)
  | .ftest f => some (packV 0x88 0 f)
  | .fwait f => some (packV 0x89 0 f)
  | .fcancel f => some (packV 0x8A 0 f)
  | .awinit f => some (packV 0x8B 0 f)
  | .await f => some (packV 0x8C 0 f)
  | .awadd f => some (packV 0x8D 0 f)
  | .fork f => some (packX 0x8E 0 f)
  | .rdv f => some (packV 0x8F 0 f)
  | .br k f => some (packB 0x90 k.minor f)
  | .bra f => some (packB 0x91 0 f)
  | .jmpi f => some (packB 0x92 0 f)
  | .call f => some (packB 0x93 0 f)
  | .calli f => some (packB 0x94 0 f)
  | .ret f => some (packB 0x95 0 f)
  | .kset f => some (packB 0x96 0 f)
  | .join f => some (packB 0x97 0 f)
  | .joinw f => some (packB 0x97 1 f)
  | .plset f => some (packV 0x98 0 f)
  | .plbr f => some (packB 0x99 0 f)
  | .exit f => some (packV 0x9A 0 f)
  | .nop f => some (packV 0x9B 0 f)
  | .yield f => some (packV 0x9C 0 f)
  | .wdog f => some (packV 0x9D 0 f)
  | .spawn k f => some (packX 0xA0 k.minor f)
  | .launch f => some (packX 0xA1 0 f)
  | .launchNode f => some (packX 0xA1 1 f)
  | .wid f => some (packV 0xA2 0 f)
  | .barArrive f => some (packV 0xA3 0 f)
  | .barWait f => some (packV 0xA3 1 f)
  | .barSync f => some (packV 0xA3 2 f)
  | .feedpop k f => some (packV 0xA4 k.minor f)
  | .feedpush f => some (packV 0xA5 0 f)
  | .sleep f => some (packV 0xA6 0 f)
  | .pairBind f => some (packV 0xA7 0 f)
  | .pairUnbind f => some (packV 0xA7 1 f)
  | .shape f => some (packX 0xB0 0 f)
  | .aballoc f => some (packX 0xB1 0 f)
  | .abfree f => some (packX 0xB2 0 f)
  | .abgrant f | .abgrantRevoke f => some (packX 0xB3 0 f)
  | .mma k f => some (packX 0xB4 k.minor f)
  | .mmap k f => some (packX 0xB5 k.minor f)
  | .guide f => some (packX 0xB6 0 f)
  | .aclr f => some (packX 0xB7 0 f)
  | .sfence f => some (packX 0xB8 0 f)
  | .ard f => some (packX 0xB9 0 f)
  | .awr f => some (packX 0xBA 0 f)
  | .trbp f => some (packX 0xBB 0 f)
  | .trap f => some (packY 0xD0 0 f)
  | .tret f => some (packY 0xD1 0 f)
  | .rdsr f => some (packY 0xD2 0 f)
  | .wrsr f => some (packYW 0xD3 0 f)
  | .place f => some (packY 0xD4 0 f)
  | .placeRestore f => some (packY 0xD4 1 f)
  | .evict f => some (packY 0xD5 0 f)
  | .evictDestroy f => some (packY 0xD5 1 f)
  | .evictSeal f => some (packY 0xD5 2 f)
  | .evictDiscard f => some (packY 0xD5 3 f)
  | .cntrd f => some (packY 0xD6 0 f)
  | .bktrd f => some (packY 0xD7 0 f)
  | .keybind f => some (packY 0xD8 0 f)
  | .gswitchSave f => some (packY 0xD9 0 f)
  | .gswitchRestore f => some (packY 0xD9 1 f)
  | .bsad4 f => some (packV 0xE4 0 f)
  | _ => none

/-- The word of an instruction; zero for an event row, which has no word. -/
def encode (i : Instr) : DWord := (encode? i).getD 0

/-- An instruction of a clause's slot, as opposed to an event row. -/
def Instr.isSlot (i : Instr) : Bool := (encode? i).isSome

/-- The instruction the decoder reads from a word of the opcode table's numbering: one 64-bit word,
bit 0 its least significant bit. -/
def decodeTableWord (nbits w : Nat) : Option Instr :=
  if nbits ≤ 64 ∧ w < 2 ^ nbits then
    match decode (BitVec.ofNat 64 w) with
    | .ok i => some i
    | _ => none
  else none

/-! ## Clause headers (R28) -/

/-- Clause classes (R28). -/
inductive Class where | vector | matrix | copy | system
  deriving DecidableEq, Repr

def Class.ofCode? (n : Nat) : Option Class :=
  match n with
  | 0 => some .vector
  | 1 => some .matrix
  | 2 => some .copy
  | 3 => some .system
  | _ => none

def hdrTag (h : DWord) : Nat := (fld h 60 4).toNat
def hdrClass? (h : DWord) : Option Class := Class.ofCode? (fld h 56 4).toNat
/-- COUNT: number of slots minus 1. -/
def hdrCount (h : DWord) : Nat := (fld h 52 4).toNat
def hdrLanding (h : DWord) : Bool := h.getLsbD 51
def hdrWait (h : DWord) : BitVec 16 := fld h 32 16
def hdrLdMax (h : DWord) : Nat := (fld h 28 4).toNat
def hdrStMax (h : DWord) : Nat := (fld h 24 4).toNat
def hdrClass (h : DWord) : Class := (hdrClass? h).getD .vector

/-- TAG and CLASS pass (R28). -/
def hdrTagOk (h : DWord) : Bool := hdrTag h == 15 && (hdrClass? h).isSome

/-- Reserved header fields are zero, and WAIT, LDMAX and STMAX in matrix and copy class (R28, R29). -/
def hdrReservedOk (h : DWord) : Bool :=
  fld h 48 3 == 0 && fld h 0 24 == 0 &&
  (match hdrClass h with
   | .matrix | .copy => hdrWait h == 0 && hdrLdMax h == 0 && hdrStMax h == 0
   | .vector | .system => true)

end Sys2Proof
end

