-- ==== Sys2Proof/Machine/State.lean ====
section
/-! DEFINITION. The state of the S9 as plain data: everything the spec gives the machine, the reasons a
step can stop, and the machine right after reset. -/

namespace Sys2Proof.Machine

/-! ## Turns: the outside's and the scheduler's choices -/

/-- A unit that issues slots. -/
inductive UnitRef where
  | split (gid entry : Nat)
  | seq (cluster : Nat)      -- matrix sequencer
  | eng (cluster : Nat)      -- copy engine
  deriving DecidableEq, Repr, Inhabited

/-- Who takes the next step (R199 lets any permitted step be next). -/
inductive Mover where
  | quad (core quad : Nat)   -- an issue quadrant (R278)
  | seq (cluster : Nat)
  | eng (cluster : Nat)
  | event (i : Instr)
  deriving DecidableEq, Repr, Inhabited

/-- One turn: time and arithmetic-clock cycles that pass, caches that lose their contents, the mover. -/
structure Turn where
  dt : Nat
  cyc : Nat
  drops : List Nat           -- cores whose cached translations are replaced (R186)
  who : Mover
  deriving DecidableEq, Repr, Inhabited

/-! ## Traps (R50) -/

inductive Cause where
  | illegalOp | reservedField | latchOrder | rights | misaligned | fetchBound | landing | pageFault
  | handle | bounds | accUnalloc | spillFull | watchdog | fpTrap | pairBroken | futureCancelled
  | tretContext | statusReserved | planeAbsent | planeAlign | shape | ecc | uniformity
  deriving DecidableEq, Repr, Inhabited

/-- The cause of one lane: code, faulting address, cause-specific information (R301). -/
structure LaneFault where
  cause : Cause
  addr : Nat
  info : Nat
  deriving DecidableEq, Repr, Inhabited

/-- A trap raised by a slot or a header: sub-cause and the lanes it names, ascending. -/
structure Trap where
  sub : Nat
  lanes : List (Nat × LaneFault)
  deriving DecidableEq, Repr, Inhabited

/-! ## Splits and groups (R77, R61) -/

/-- A clause in issue (R30, R45, R48, R87, R88, R149). -/
structure Clause where
  hdr : DWord
  off : Nat
  handler : Bool             -- fetched from plane 0 whatever the lanes' planes (R298)
  subs : List Mask           -- the fixed sub-mask of each plane (R87)
  atHdr : Bool               -- the header of this plane issue is still to be passed
  rem : BitVec 4             -- planes whose issue is still to run
  plane : Nat                -- the plane now issuing
  first : Bool               -- this is the first issue of the clause (R106)
  sub : Mask                 -- active lanes of this plane issue or lane pass
  lpass : Bool               -- lane passes (R48)
  remLanes : Mask            -- lane passes not begun
  slot : Nat
  fmt : Word                 -- FMT in force
  pend : Option Word         -- pending FMT
  done : Mask                -- lanes that do not execute the next slot again (R302)
  sent : Mask                -- lanes of this slot already sent (R193)
  latch : SMap Word          -- (4k + w) * 128 + lane
  issue : Nat                -- number of this issue, which outstanding results name
  yielded : Bool             -- R109
  counted : Bool             -- counter 0x0000 has counted this slot
  xfer : Option Instr        -- the transfer recorded so far (R88)
  xT : Mask                  -- its executing lanes
  xV : SMap Word             -- its per-lane operand
  deriving DecidableEq, Repr, Inhabited

/-- What a parked split waits for (R64, R93, R217, R233, R237, R302). -/
inductive ParkKind where
  | bar (b : Nat)
  | joinw (k : Nat)
  | feedpop
  | sleep (t : Nat)
  | waitm (t : Option Nat)
  | await (off gen : Nat)
  | rdv (n : Nat)
  | tret
  deriving DecidableEq, Repr, Inhabited

structure Park where
  kind : ParkKind
  lanes : Mask               -- the executing lanes
  instr : Instr
  stamp : Nat                -- order of parking
  wake : Option Nat          -- woken, with the reason or value it reports
  data : List Word           -- the record handed to a FEEDPOP (R68)
  deriving DecidableEq, Repr, Inhabited

/-- STATE of R77. -/
inductive SState where
  | ready
  | mid
  | waiting
  | parked (p : Park)
  deriving DecidableEq, Repr, Inhabited

/-- A live split: one entry of the split table (R77) with its split times (R197). -/
structure Split where
  offset : Int               -- next header; an unreachable value traps when fetched (R98)
  mask : Mask
  fmt : Word
  sfmt : Word
  age : Nat                  -- birth number: smaller is older
  st : SState
  stopped : Bool             -- by another split's trap (R97)
  handler : Option Nat       -- HANDLER and its frame slot
  joined : Bool              -- the join of this join point is made (R92)
  vect : Option Nat          -- fault class of a trap whose handler's first header is still to be checked (R297)
  clause : Option Clause
  maxgwct : Nat
  lastsend : Nat
  acqt : Nat                 -- copies granted earlier are stale (R206)
  seen : SMap Nat            -- per sector, 1 + the commit number last read (R203)
  deriving DecidableEq, Repr, Inhabited

/-- A valid deferral record (R79, R80): its slot in the region; the bytes lie in memory. -/
structure DefRec where
  slot : Nat
  mask : Mask
  parked : Option Nat        -- K register of its JOINW
  handler : Option Nat
  age : Nat
  offset : Int
  fmt : Word
  sfmt : Word
  clause : Option Clause     -- a clause in progress (R302's deferred part)
  maxgwct : Nat
  lastsend : Nat
  acqt : Nat
  seen : SMap Nat
  deriving DecidableEq, Repr, Inhabited

/-- Where the result of an outstanding access goes (R29, R35, R45). -/
structure WriteBack where
  dst : Dst
  scalar : Bool              -- this lane's result is the scalar's
  issue : Nat
  slot : Nat
  word : Nat                 -- first latch word
  n : Nat                    -- words
  deriving DecidableEq, Repr, Inhabited

/-- A store-queue entry's effect at its home (R200). -/
inductive QKind where
  | store
  | atom (op : AtomOp) (v : Word)
  | cas (cmp new : Word)
  | sc (x : Word)
  deriving DecidableEq, Repr, Inhabited

/-- An entry of a store queue: one issue's bytes to one sector. -/
structure QEntry where
  lane : Nat
  tag : Nat                  -- the issue; R29 counts tags
  pa : Nat                   -- physical address of the first byte
  va : Nat
  ipage : Nat                -- intermediate 128 KiB page, for the D bit
  data : SMap Byte           -- physical address to byte
  kind : QKind
  wb : Option WriteBack
  deriving DecidableEq, Repr, Inhabited

/-- How loaded bytes become a word, and what else the load does. -/
inductive LKind where
  | plain
  | elem (es : Nat) (signed : Bool)   -- R175
  | lr
  | arm
  deriving DecidableEq, Repr, Inhabited

/-- An outstanding load of one lane. -/
structure PLoad where
  lane : Nat
  tag : Nat
  pa : Nat
  va : Nat
  n : Nat
  scope : Nat
  kind : LKind
  wb : WriteBack
  deriving DecidableEq, Repr, Inhabited

/-- Monitor states (R215). -/
inductive Monitor where
  | none
  | armed (sector : Nat)
  | fired
  | lost
  deriving DecidableEq, Repr, Inhabited

/-- A lane's reservation (R194, R195). -/
inductive Resv where
  | none
  | held (sector : Nat)
  | broken                   -- cleared by another party's store
  | lost                     -- cleared by eviction, restore or discard
  deriving DecidableEq, Repr, Inhabited

/-- A band slot (R251). -/
structure Band where
  bank : Nat
  n : Nat
  row0 : Nat
  h : Nat
  w : Bool
  deriving DecidableEq, Repr, Inhabited

/-- A launch header (R56). -/
structure LaunchHdr where
  codeBase : Nat
  codeSize : Nat
  entry : Nat
  width : Nat
  vregs8 : Nat
  groups : Nat               -- GROUPS + 1
  planes : BitVec 4
  plshift : Nat
  scratch : Nat              -- in 256-byte units
  sbtimer : Nat
  widths : List Nat
  aff : Nat
  dims : List Nat            -- DIM2 to DIM5
  args : Nat
  feedtab : Nat
  feedper : Nat
  feedslots : Nat
  doneaddr : Nat
  donetag : Nat
  fmtinit : Word
  deriving DecidableEq, Repr, Inhabited

/-- What a frame does not hold of a clause that a trap interrupts: the transfer its earlier plane
issues recorded (R88), and the lanes they issued for. -/
structure Kept where
  xfer : Option Instr
  xT : Mask
  xV : SMap Word
  issued : Mask
  joined : Bool              -- the join of this clause has been made (R92)
  deriving DecidableEq, Repr, Inhabited

structure Group where
  gid : Nat
  ctx : Nat
  launch : Nat               -- 0: formed from a seedbed
  block : Nat
  gidx : Nat
  core : Nat
  quad : Nat
  gslot : Nat
  hdr : LaunchHdr
  hdrAddr : Nat
  resident : Bool
  halted : Bool              -- no slot issues (R280, R281, R320)
  readyAt : Nat
  lastIssue : Nat
  win : SMap Word            -- register i of lane l at i * width + l (R116)
  sreg : SMap Word
  preds : SMap Mask          -- P0 to P6
  kregs : SMap Mask          -- K0 to K7
  fregs : SMap Word          -- F0 to F15
  wid : SMap DWord
  plane : SMap Nat
  depth : SMap Nat
  exited : Mask
  splits : List (Option Split)
  defs : List DefRec         -- valid records, oldest write first
  kept : SMap Kept           -- by frame slot
  wdFrame : Option Nat       -- frame slot of a WATCHDOG whose handler has not ended (R97)
  births : Nat               -- next age
  issues : Nat               -- next clause-issue number and access tag
  spillBase : Nat
  spillLim : Nat             -- in bytes
  burst : Nat
  area : Option Nat
  fpstat : Word
  bands : List (Option Band)
  wdog : Nat
  holder : Option Nat        -- the entry that has the group's issue (R83)
  held : Nat                 -- cycles counted towards CX.FAIR
  pass : Bool                -- issue passes at the next clause boundary (R83)
  monitors : SMap Monitor
  resv : SMap Resv
  queue : List QEntry        -- oldest first
  loads : List PLoad
  deriving DecidableEq, Repr, Inhabited

/-! ## Blocks, barriers, pairs -/

/-- A barrier (R62). -/
structure Barrier where
  ph : Nat
  expected : Option Nat
  marks : SMap Nat           -- groupIndex * 128 + lane
  deriving DecidableEq, Repr, Inhabited

/-- A pair slot (R255): each member's group index in the block. -/
structure PairSlot where
  cmem : Option Nat
  umem : Option Nat
  caw : Nat
  uaw : Nat
  cgen : Nat
  ugen : Nat
  ccur : Bool
  ucur : Bool
  deriving DecidableEq, Repr, Inhabited

structure Block where
  id : Nat
  ctx : Nat
  launch : Nat
  idx : Nat
  core : Nat
  hdr : LaunchHdr
  seed : Nat                 -- number of its scratchpad's allotment
  data : SMap (Option Byte)  -- scratchpad; unlisted bytes are free values
  bars : SMap Barrier
  pairs : SMap PairSlot
  placed : Bool
  admitted : Nat             -- order of admission
  groups : List Nat
  deriving DecidableEq, Repr, Inhabited

/-- A launch accepted and not completed (R57, R277). -/
inductive LaunchSrc where
  | packet (part qid idx : Nat)
  | instr
  | node (run node : Nat)
  deriving DecidableEq, Repr, Inhabited

structure Launch where
  id : Nat
  ctx : Nat
  hdr : LaunchHdr
  hdrAddr : Nat
  args : Nat
  next : Nat                 -- next block index to admit
  count : Nat                -- number of blocks
  live : Nat                 -- blocks admitted and not ended
  src : LaunchSrc
  notBefore : Nat            -- first instruction no earlier (R60)
  gwct : Nat                 -- largest GWCT of its stores (R57's DONE)
  deriving DecidableEq, Repr, Inhabited

/-- An entry of a pending-launch list (R277, R281). -/
inductive Pending where
  | launch (id : Nat)
  | block (id : Nat)
  deriving DecidableEq, Repr, Inhabited

/-- A thread entry of a seedbed (R65, R66). -/
structure SeedEntry where
  wid : DWord
  pay : List Word
  deriving DecidableEq, Repr, Inhabited

structure SeedKey where
  core : Nat
  ctx : Nat
  key : Nat
  hdr : LaunchHdr
  hdrAddr : Nat
  entries : List SeedEntry
  start : Option Nat
  deriving DecidableEq, Repr, Inhabited

structure Formed where
  core : Nat
  ctx : Nat
  hdr : LaunchHdr
  hdrAddr : Nat
  entries : List SeedEntry
  readyAt : Nat
  deriving DecidableEq, Repr, Inhabited

structure Feed where
  ctx : Nat
  core : Nat
  cap : Nat
  recs : List (List Word)
  deriving DecidableEq, Repr, Inhabited

/-! ## The visibility machine (R197) -/

structure Commit where
  sector : Nat
  time : Nat
  gwct : Nat
  deriving DecidableEq, Repr, Inhabited

structure Copy where
  core : Nat
  sector : Nat
  val : List Byte
  leaseEnd : Nat
  granted : Nat
  version : Nat              -- commits the value includes
  deriving DecidableEq, Repr, Inhabited

structure Lease where
  sector : Nat
  till : Nat
  deriving DecidableEq, Repr, Inhabited

structure Own where
  op : Nat
  sector : Nat
  deriving DecidableEq, Repr, Inhabited

/-- A cached translation (R186): stage-1 and stage-2 entries of 128 KiB pages. -/
structure Tlb where
  core : Nat
  ctx : Nat
  stage2 : Bool
  page : Nat
  out : Nat                  -- output page
  perms : BitVec 3           -- X, W, RD
  owner : Nat
  deriving DecidableEq, Repr, Inhabited

structure HEntry where
  core : Nat
  ctx : Nat
  idx : Nat
  bytes : List Byte
  deriving DecidableEq, Repr, Inhabited

/-- An entry of a monitor or reservation table: table 0-3 a die, 4 the host port. -/
structure WatchEntry where
  table : Nat
  gid : Nat
  lane : Nat
  sector : Nat
  deriving DecidableEq, Repr, Inhabited

/-- Who makes an access: a unit, an engine operation, a queue, another part of the control complex. -/
inductive Agent where
  | unit (u : UnitRef)
  | op (id : Nat)
  | queue (part qid : Nat)
  | control (n : Nat)
  deriving DecidableEq, Repr, Inhabited

/-- An access stalled in stage 2 (R23). `freed`: a write of CX.TINV has named the page since. -/
structure Stall where
  ctx : Nat
  ipage : Nat
  who : Agent
  freed : Bool
  deriving DecidableEq, Repr, Inhabited

structure Vis where
  commits : List Commit      -- newest first
  copies : List Copy
  leases : List Lease
  owned : List Own           -- oldest claim first
  frameOwner : SMap Nat
  tlb : List Tlb
  hcache : List HEntry       -- most recently used first
  mons : List WatchEntry     -- oldest first
  resvs : List WatchEntry
  stalls : List Stall
  deriving DecidableEq, Repr, Inhabited

/-! ## Engines and the matrix (R220 to R259) -/

/-- A run of bytes from a source to a destination within one destination sector (R208). -/
structure Part where
  src : Nat                  -- source address (virtual, or scratchpad offset)
  dst : Nat
  n : Nat
  deriving DecidableEq, Repr, Inhabited

inductive Progress where | todo | read | done
  deriving DecidableEq, Repr, Inhabited

/-- One destination sector of an operation, or one packet of an RMT operation. -/
structure Piece where
  parts : List Part
  data : List (Nat × Byte)   -- destination address to byte, once read
  st : Progress
  deriving DecidableEq, Repr, Inhabited

/-- A collective as its member issued it (R239, R240). -/
structure CollInfo where
  op : CollOp
  ty : Nat
  count : Nat
  root : Nat
  members : List Nat         -- gang positions by rank
  rank : Nat
  tag : Nat
  src : Nat
  vc : Nat
  deriving DecidableEq, Repr, Inhabited

inductive OpKind where
  | copy
  | coll (c : CollInfo)
  | packet (part qid idx : Nat)   -- a COPY packet (R268)
  deriving DecidableEq, Repr, Inhabited

structure EOp where
  id : Nat
  cluster : Nat
  ctx : Nat
  serial : Nat
  kind : OpKind
  block : Nat
  core : Nat
  ssp : Bool
  dsp : Bool
  rmt : Option (Nat × Nat)   -- gang position and VC
  aw : Option Nat
  pieces : List Piece
  started : Bool
  stopped : Bool             -- by a gang switch (R320)
  gwct : Nat
  lastsend : Nat
  outstanding : Nat          -- packets not yet out of the outbox
  contrib : SMap Byte        -- COLL: own source bytes read so far, by offset
  sent : List Nat            -- COLL: what it has sent; 0 is its announcement
  prog : Bool                -- issued by a copy-engine program
  gid : Nat
  held : List Packet         -- packets that a gang switch returned from an outbox (R320)
  deriving DecidableEq, Repr, Inhabited

inductive TStat where | pending | done | faulted | cancelled
  deriving DecidableEq, Repr, Inhabited

/-- The status entry of a token (R223, R224). -/
structure Token where
  cluster : Nat
  ctx : Nat
  serial : Nat
  st : TStat
  cause : Nat
  addr : Nat
  gwct : Nat
  lastsend : Nat
  order : Nat                -- order of ending
  deriving DecidableEq, Repr, Inhabited

structure Rdv where
  ph : Nat
  marks : SMap Nat           -- lane: ph + 1 when arrived
  units : List Bool          -- sequencer, copy engine arrived
  deriving DecidableEq, Repr, Inhabited

structure ForkSet where
  id : Nat
  gid : Nat
  cluster : Nat
  group : Bool               -- the group is still a member
  seq : Bool
  eng : Bool
  rdvs : SMap Rdv
  deriving DecidableEq, Repr, Inhabited

/-- A matrix operand (R246). -/
structure MOperand where
  handle : Word
  bytes : List Byte
  deriving DecidableEq, Repr, Inhabited

inductive ArrKind where
  | mma
  | mmap (slot : Nat)
  | guide (g : Word) (n slot : Nat) (condOnly : Bool)
  | aclr (n : Nat)
  deriving DecidableEq, Repr, Inhabited

/-- An array operation in the queue or running (R243). -/
structure ArrOp where
  kind : ArrKind
  fmt : MmaFmt
  fmtw : Word
  acc : Bool
  sat : Bool
  shp : Word
  a : MOperand
  a2 : MOperand
  b : MOperand
  org : Nat × Nat × Nat
  bank : Nat
  bank2 : Nat
  started : Bool
  readAt : Bool              -- operands read, and no member left to run
  pres : BitVec 2            -- members present at the start (R258)
  ran : BitVec 3             -- members run; the latch at completion
  waited : Nat               -- cycles waited for the second member
  expired : Bool
  rows : List (Nat × Nat × List Word)  -- bank, row, words still to be written
  flags : Word
  off : Nat                  -- offset of its instruction
  lslot : Nat                -- slot and issue of its latch
  lissue : Nat
  deriving DecidableEq, Repr, Inhabited

/-- A program of a matrix sequencer or copy engine (R234, R241). -/
structure Prog where
  id : Nat
  isSeq : Bool
  cluster : Nat
  ctx : Nat
  block : Nat
  gid : Nat
  serial : Nat               -- completion token
  tokCl : Nat                -- cluster of that token
  codeBase : Nat
  codeSize : Nat
  regs : SMap Word
  preds : BitVec 8
  shp : Word
  fmt : Word
  off : Int
  clause : Option Clause
  park : Option Park
  queue : List ArrOp
  live : Bool                -- still issuing
  stopped : Bool             -- by an eviction (R238)
  ending : TStat             -- how it ended
  cause : Nat
  causeAddr : Nat
  gwct : Nat
  lastsend : Nat
  ops : List Nat             -- outstanding engine operations
  issues : Nat
  deriving DecidableEq, Repr, Inhabited

/-- The code store of a unit (R289). -/
structure CodeStore where
  cluster : Nat
  isSeq : Bool
  ctx : Nat
  recAddr : Nat
  bytes : List Byte
  code : SMap Byte
  deriving DecidableEq, Repr, Inhabited

structure Bank where
  ctx : Nat
  cluster : Nat
  num : Nat
  words : SMap Word          -- row * 64 + column
  placed : Bool
  deriving DecidableEq, Repr, Inhabited

/-- An operand-cache entry (R248). -/
structure OpEntry where
  cluster : Nat
  ctx : Nat
  handle : Word
  roleA : Bool
  origin : Nat × Nat × Nat
  shp : Word
  vals : List Word
  deriving DecidableEq, Repr, Inhabited

structure Matrix where
  ops : List EOp
  tokens : List Token
  ends : Nat                 -- numbers ended operations
  forks : List ForkSet
  progs : List Prog
  stores : List CodeStore
  banks : List Bank
  opCache : List OpEntry     -- most recently used first
  deriving DecidableEq, Repr, Inhabited

/-! ## Contexts -/

structure Bucket where
  rate : Nat
  level : Int
  used : Nat                 -- consumed since the last tick
  pend : Option (Nat × Int)  -- RATE and LEVEL written since the last tick (R279)
  deriving DecidableEq, Repr, Inhabited

/-- Where an image is to be sealed: its number, the lengths of its sections, the operator context whose
addresses name the buffer, the buffer's address. -/
structure SealPlan where
  id : Nat
  lens : List Nat
  op : Nat
  addr : Nat
  deriving DecidableEq, Repr, Inhabited

/-- An eviction under way (R214, R280, R281, R315). -/
inductive Leave where
  | evict (hold : Bool) (p : SealPlan)
  | seal (p : SealPlan)
  | desched (p : Option SealPlan)          -- none: its save area is too small
  | slice (blocks : List Nat) (p : SealPlan)
  | switch                                  -- a gang switch (R320)
  deriving DecidableEq, Repr, Inhabited

structure Ctx where
  num : Nat
  auth : Nat                 -- 1 operator, 2 owner, 3 auditor
  part : Nat
  audscope : Nat
  restore : Bool
  claimed : Bool
  run : Nat
  gang : Bool
  fabinc : Bool
  dfault : Bool
  tvec : Word
  spillPool : DWord
  spillAreas : Word
  wdog : Word
  fair : Word
  pair : Word
  lease : Word
  htab : DWord
  hlim : Word
  s1root : DWord
  s2root : DWord
  abquota : Word
  slice : Word
  bkt : List Bucket          -- time, bandwidth, energy
  dlog : DWord
  dlogn : DWord
  dmap : DWord
  nlog : DWord
  counters : SMap Nat        -- 0x0000 to 0x0012, modulo 2^64
  gangPos : Nat
  gangSize : Nat
  jobTag : Nat
  saveBase : Nat
  saveSize : Nat
  tenant : Nat
  clusters : BitVec 72
  image : Option Nat         -- address of a restore shell's image
  imgSize : Nat
  acceptInc : Bool
  keySlot : Option Nat
  serials : SMap Nat         -- last serial per cluster
  floorGwct : Nat
  floorSend : Nat
  sliceStart : Option Nat
  lastWake : Option Nat
  flagged : List Nat         -- QIDs with WAKEAGAIN, first set first (R270)
  leave : Option Leave       -- an eviction under way
  deriving DecidableEq, Repr, Inhabited

/-- System acts that stall their split (R313). -/
structure Act where
  gid : Nat
  entry : Nat
  lane : Nat
  ctx : Nat
  done : Option Word         -- its result
  deriving DecidableEq, Repr, Inhabited

structure KeySlot where
  slot : Nat
  tenant : Nat
  key : BitVec 256
  bound : Nat
  pend : Nat
  part : Nat
  deriving DecidableEq, Repr, Inhabited

structure SealEntry where
  ctrbase : Nat
  keySlot : Option Nat
  part : Nat
  deriving DecidableEq, Repr, Inhabited

/-! ## Control complex (R266 to R292) -/

structure Partition where
  part : Nat
  clusters : BitVec 72
  channels : BitVec 256
  slots : Nat
  keys : Nat
  operator : Nat             -- its operator context
  deriving DecidableEq, Repr, Inhabited

structure Func where
  fn : Nat
  cmdaddr : DWord
  go : Bool
  cmdstat : Word
  pending : Bool
  resident : Bool
  timebad : Bool
  ilog : DWord
  cmd : List Byte            -- the command record read when GO was written
  deriving DecidableEq, Repr, Inhabited

/-- An accepted packet that has not completed (R268). -/
structure Accepted where
  idx : Nat
  type : Nat
  intr : Bool
  done : Bool
  copyOp : Option Nat
  deriving DecidableEq, Repr, Inhabited

structure Triple where
  addr : Nat
  cmp : Nat
  v : Nat
  deriving DecidableEq, Repr, Inhabited

structure WaitState where
  idx : Nat
  all : Bool
  triples : List Triple
  result : Nat
  intr : Bool
  since : Nat
  deriving DecidableEq, Repr, Inhabited

structure Queue where
  part : Nat
  qid : Nat
  ctx : Nat
  ring : Nat
  log2n : Nat
  pasidv : Bool
  pasid : Nat
  idx : Nat
  pin : Bool
  vec : Nat
  state : Nat
  wr : Nat                   -- WRIDX as last read
  rd : Nat                   -- RDIDX
  accepted : List Accepted
  wait : Option WaitState
  slot : Option Nat
  mappedAt : Nat
  pwake : Option Nat         -- pending wake stamp
  again : Bool               -- WAKEAGAIN
  watch : Bool               -- on the watch list
  gwct : Nat                 -- largest GWCT of its packets' stores
  deriving DecidableEq, Repr, Inhabited

inductive NodeState where | waiting | running | done
  deriving DecidableEq, Repr, Inhabited

structure Node where
  kind : Nat
  nsucc : Nat
  cond : Nat
  intr : Bool
  limit : Nat
  header : Nat
  operand : Nat
  value : Nat
  extra : Nat
  succ : List Nat
  pred : Nat                 -- predecessors left
  st : NodeState
  iters : Nat
  inRun : Bool
  child : Bool               -- a nested run is running
  want : Bool                -- waits for a free run record (R283)
  deriving DecidableEq, Repr, Inhabited

structure Run where
  id : Nat
  ctx : Nat
  parent : Option (Nat × Nat)
  depth : Nat
  header : Nat
  arg : Nat
  doneaddr : Nat
  donetag : Nat
  nodes : List Node
  status : Nat               -- 0, 3 UNREADABLE or 4 GRAPHERROR (R284)
  src : LaunchSrc
  order : Nat
  deriving DecidableEq, Repr, Inhabited

/-- A LAUNCH.1 that waits for a free run record (R283). -/
structure HeldRun where
  ctx : Nat
  node : Nat
  arg : Nat
  deriving DecidableEq, Repr, Inhabited

structure Control where
  partitions : List Partition
  funcs : List Func
  queues : List Queue
  launches : List Launch
  waitingHdr : List Launch   -- accepted by the front end, header not yet read
  pendings : List (Nat × Pending)   -- partition and entry, in list order
  runs : List Run
  heldRuns : List HeldRun
  draining : List (Nat × Nat)  -- PASID, and the function that drains it (R291)
  atsReqs : List (Nat × Nat)   -- outstanding ATS requests: PASID and host virtual page, oldest first
  atc : List (Nat × Nat)       -- translations received and kept: PASID and page
  seq : Nat
  checkpoint : Nat           -- time of the last checkpoint (R266)
  mismatch : Option Nat      -- time of the last comparator mismatch
  keySlots : List KeySlot
  seals : List SealEntry
  acts : List Act
  ctlFaults : Nat            -- control faults (R266)
  powerLevel : Nat
  powerBelow : Option Nat
  destroyed : SMap Nat       -- partition * 32 + counter: totals of destroyed contexts
  ticks : Nat                -- accounting ticks taken
  mapTicks : Nat             -- 100 us ticks taken (R275)
  deriving DecidableEq, Repr, Inhabited

/-! ## Sealed images (R308 to R312, R316, R320) -/

/-- A packet record of a clearing or windfall area (R320). -/
structure AreaRec where
  port : Nat
  pkt : Packet
  window : Nat
  kind : Nat
  deriving DecidableEq, Repr, Inhabited

/-- What a sealed image holds. The bytes in memory are uninterpreted; a restore compares them. -/
structure Image where
  id : Nat
  top : Nat                  -- every number used inside lies below it
  ctrbase : Nat
  chunks : Nat
  header : List Byte
  kind : Nat
  tenant : Nat
  key : BitVec 256
  live : BitVec 32
  fabinc : Bool
  clr : List AreaRec         -- gang images: clearing and windfall
  wf : List AreaRec
  ctx : Ctx
  groups : List Group
  blocks : List Block
  feeds : List Feed
  seeds : List SeedKey
  formed : List Formed
  forks : List ForkSet
  progs : List Prog
  stores : List CodeStore
  ops : List EOp
  banks : List Bank
  tokens : List Token
  launches : List Launch
  pendings : List Pending
  deriving DecidableEq, Repr, Inhabited

/-! ## Fabric (R211, R212, R318, R328 to R332) -/

structure OutPacket where
  op : Nat                   -- operation, 0 for none
  pkt : Packet
  transit : Bool             -- of another package, on its way through this one
  deriving DecidableEq, Repr, Inhabited

/-- A packet in a receive buffer: the window it arrived in; `again`: a gang switch put it back (R321). -/
structure RxPacket where
  pkt : Packet
  win : Nat
  again : Bool
  deriving DecidableEq, Repr, Inhabited

structure Port where
  port : Nat
  up : Bool
  fault : Bool
  disabled : Bool
  replays : Nat
  delay : Nat
  outbox : List OutPacket
  rx : List RxPacket
  deriving DecidableEq, Repr, Inhabited

structure Path where
  job : Nat
  dst : Nat
  vc : Nat
  ports : List Nat
  budget : Nat
  used : Nat                 -- bytes charged in window `win`
  win : Nat
  deriving DecidableEq, Repr, Inhabited

structure SeqNo where
  job : Nat
  dst : Nat
  vc : Nat
  next : Nat
  deriving DecidableEq, Repr, Inhabited

inductive SwPhase where | waiting | swept | sealed | done | restoring | injected
  deriving DecidableEq, Repr, Inhabited

structure Switch where
  ctx : Nat
  gid : Nat
  entry : Nat
  lane : Nat
  window : Nat
  image : Nat
  imgSize : Nat
  clrSize : Nat
  clearing : Nat
  windfall : Nat
  wfSize : Nat
  phase : SwPhase
  clr : List AreaRec
  wf : List AreaRec
  late : Nat
  kept : Nat
  dropped : Nat
  fabinc : Bool
  imageId : Nat
  plan : SealPlan
  ctrbase : Nat
  chunks : Nat
  header : List Byte
  live : BitVec 32
  deriving DecidableEq, Repr, Inhabited

/-- Responses of the SPDM responder (R336). -/
inductive SpdmKind where | certificate | challengeAuth | measurements | keyExchange | busy | finish | vendor | update
  deriving DecidableEq, Repr, Inhabited

/-- What leaves the device. -/
inductive OutMsg where
  | packet (port : Nat) (p : Packet)
  | offset (port : Nat) (beyond : Bool)            -- an offset report (R332)
  | msix (fn vec : Nat)
  | spdm (k : SpdmKind) (bytes : List Byte) (meas : List (BitVec 512))
  | hostRead (addr : Nat) (data : List Byte)
  | hostWriteDone (addr time : Nat)
  | keybind (status : Nat)
  deriving DecidableEq, Repr, Inhabited

/-- What a member of a collective has sent (R240): its job, tag and payload. -/
structure CollMsg where
  job : Nat
  tag : Nat
  body : List Byte
  deriving DecidableEq, Repr, Inhabited

structure Fabric where
  ports : List Port
  paths : List Path
  seqNos : List SeqNo
  switches : List Switch
  coll : List CollMsg
  out : List OutMsg          -- newest first
  peerHold : List Nat
  lastReport : Nat
  ptpLocked : Bool
  offset : Int
  beyond50 : Option Nat
  within50 : Option Nat
  timesetDone : Bool
  deriving DecidableEq, Repr, Inhabited

/-! ## Boot (R333 to R336) -/

inductive BootPhase where | off | running | recovery
  deriving DecidableEq, Repr, Inhabited

structure JEntry where
  step : Nat
  variant : Nat
  ended : Option Bool
  deriving DecidableEq, Repr, Inhabited

/-- Fields of the configuration record (R334). -/
structure ConfigRec where
  magic : Nat
  rev : Nat
  sku : Nat
  inst : Nat
  clusters : BitVec 72
  power : Nat
  features : BitVec 32
  repair : List Byte
  clocks : List Nat
  energy : List Nat
  svn : Nat
  deriving DecidableEq, Repr, Inhabited

structure Boot where
  phase : BootPhase
  starts : Nat
  journal : List JEntry
  variants : List Nat        -- of steps 3, 4, 5, 7
  fuse : Nat
  cfg : ConfigRec
  clusters : BitVec 72       -- usable clusters
  meas : List (BitVec 512)
  sessions : Nat
  sealCtr : Nat
  sealBlock : Nat
  slotA : Nat                -- SVN of each image slot
  slotB : Nat
  rate : Nat                 -- memory training: 0 full, 1 85 %, 2 70 %
  dieRun : List Bool
  deriving DecidableEq, Repr, Inhabited

/-! ## The machine -/

structure State where
  agenda : List Turn
  cur : Option UnitRef
  fresh : Nat                -- numbers free values
  nextId : Nat
  now : Nat                  -- device time, ns
  cyc : Nat                  -- arithmetic-clock cycles
  mem : SMap Byte            -- physical memory
  vis : Vis
  groups : List Group
  blocks : List Block
  seeds : List SeedKey
  formed : List Formed
  feeds : List Feed
  coreAdmit : SMap Nat       -- per core, 1 + time of the last admission
  coreScrub : SMap Nat
  ctxs : List Ctx
  mx : Matrix
  ctl : Control
  vault : List Image
  fab : Fabric
  boot : Boot
  deriving DecidableEq, Repr, Inhabited

/-- Why the machine stops with a fault. -/
inductive Fault where
  /-- A slot instruction stands on exec while no unit is at a slot: raised by every slot instruction's
  meaning on such a state, which no step reaches. Safe: the hardware has no such moment (R51). -/
  | noIssue
  deriving DecidableEq, Repr, Inhabited

/-- Why an instruction is refused. -/
inductive Refusal where
  /-- Raised by an arm of exec whose instruction has no meaning yet. Safe: nothing follows from it. -/
  | notModelled (mnemonic : String)
  deriving DecidableEq, Repr

/-! ## Memory -/

/-- What a byte that nothing has written reads as (DESIGN CHOICE, assumption 5). -/
def memDefault : Byte := 0

/-- The canonical form of memory. -/
abbrev Memory.wf (m : SMap Byte) : Prop := SMap.wf memDefault m = true

/-! ## Reset -/

def Vis.empty : Vis := ⟨[], [], [], [], [], [], [], [], [], []⟩
def Matrix.empty : Matrix := ⟨[], [], 0, [], [], [], [], []⟩

/-- The configuration record of a part (R334): every cluster usable, every feature block of R311, the
clocks of R337; fields no rule fixes are zero (assumption 4). -/
def ConfigRec.default : ConfigRec :=
  { magic := 0x53394346, rev := 1, sku := 0, inst := 0, clusters := BitVec.allOnes 72, power := 150,
    features := 0xFF, repair := [], clocks := [1750, 1500, 1250, 1000], energy := [], svn := 0 }

def Boot.reset : Boot :=
  { phase := .off, starts := 0, journal := [], variants := [0, 0, 0, 0], fuse := 0, cfg := ConfigRec.default,
    clusters := 0, meas := List.replicate 8 0, sessions := 0, sealCtr := 0, sealBlock := 0, slotA := 0,
    slotB := 0, rate := 0, dieRun := [false, false, false, false] }

def Port.reset (n : Nat) : Port := ⟨n, false, false, false, 0, 0, [], []⟩

def Fabric.reset : Fabric :=
  { ports := (List.range 12).map Port.reset, paths := [], seqNos := [], switches := [], coll := [], out := [],
    peerHold := [], lastReport := 0, ptpLocked := false, offset := 0, beyond50 := none, within50 := none,
    timesetDone := false }

def Func.reset (n : Nat) : Func := ⟨n, 0, false, 0, false, false, false, 0, []⟩

def Control.reset : Control :=
  { partitions := [], funcs := (List.range 16).map Func.reset, queues := [], launches := [], waitingHdr := [],
    pendings := [], runs := [], heldRuns := [], draining := [], atsReqs := [], atc := [], seq := 0, checkpoint := 0, mismatch := none,
    keySlots := [], seals := [], acts := [], ctlFaults := 0, powerLevel := 0, powerBelow := none,
    destroyed := [], ticks := 0, mapTicks := 0 }

/-- The machine right after reset: power is not yet good, nothing runs, no memory byte is listed. -/
def State.reset : State :=
  { agenda := [], cur := none, fresh := 0, nextId := 1, now := 0, cyc := 0, mem := [], vis := Vis.empty,
    groups := [], blocks := [], seeds := [], formed := [], feeds := [], coreAdmit := [], coreScrub := [],
    ctxs := [], mx := Matrix.empty, ctl := Control.reset, vault := [], fab := Fabric.reset, boot := Boot.reset }

end Sys2Proof.Machine
end

