-- ==== Sys2Proof/Machine/Mem.lean ====
section
/-! DEFINITION. Memory by physical address, homes, the two translation stages, commits, notices and logs:
the operations every access of the device goes through (R15, R16, R23, R179 to R186, R200). -/

namespace Sys2Proof.Machine

/-! ## Looking things up -/

def bitsOf (x lo n : Nat) : Nat := x / 2 ^ lo % 2 ^ n

def State.ctx? (s : State) (n : Nat) : Option Ctx := s.ctxs.find? (fun c => c.num == n)
def State.getCtx (s : State) (n : Nat) : Ctx := (s.ctx? n).getD default
/-- A live context: created and not destroyed (R296, RUN 7). -/
def State.liveCtx (s : State) (n : Nat) : Bool :=
  match s.ctx? n with
  | some c => c.run != 7
  | none => false
def State.updCtx (s : State) (n : Nat) (f : Ctx → Ctx) : State :=
  { s with ctxs := updWhere (fun c => c.num == n) f s.ctxs }
def State.group? (s : State) (g : Nat) : Option Group := s.groups.find? (fun x => x.gid == g)
def State.getGroup (s : State) (g : Nat) : Group := (s.group? g).getD default
def State.updGroup (s : State) (g : Nat) (f : Group → Group) : State :=
  { s with groups := updWhere (fun x => x.gid == g) f s.groups }
def State.block? (s : State) (b : Nat) : Option Block := s.blocks.find? (fun x => x.id == b)
def State.getBlock (s : State) (b : Nat) : Block := (s.block? b).getD default
def State.updBlock (s : State) (b : Nat) (f : Block → Block) : State :=
  { s with blocks := updWhere (fun x => x.id == b) f s.blocks }
def State.prog? (s : State) (cluster : Nat) (isSeq : Bool) : Option Prog :=
  s.mx.progs.find? (fun p => p.cluster == cluster && p.isSeq == isSeq)
def State.updProg (s : State) (cluster : Nat) (isSeq : Bool) (f : Prog → Prog) : State :=
  { s with mx := { s.mx with progs := updWhere (fun p => p.cluster == cluster && p.isSeq == isSeq) f s.mx.progs } }
def State.updOp (s : State) (id : Nat) (f : EOp → EOp) : State :=
  { s with mx := { s.mx with ops := updWhere (fun o => o.id == id) f s.mx.ops } }

def clusterOf (core : Nat) : Nat := core / 4
def dieOf (cluster : Nat) : Nat := cluster / 18

/-- Add to a counter of R295, modulo 2^64. -/
def State.count (s : State) (ctx id n : Nat) : State :=
  s.updCtx ctx (fun c => { c with counters := c.counters.set 0 id ((c.counters.get id 0 + n) % 2 ^ 64) })

/-- Charge a bucket's consumption (R279): 0 time, 1 bandwidth, 2 energy. -/
def State.charge (s : State) (ctx bkt n : Nat) : State :=
  s.updCtx ctx (fun c => { c with bkt := (List.range 3).map (fun i =>
    let b := c.bkt.getD i default
    if i = bkt then { b with used := b.used + n } else b) })

/-! ## Physical memory (R179) -/

/-- First physical address of host memory. -/
def hostBase : Nat := 0x8000000000000

def populated (pa : Nat) : Bool := pa < 0x18000000000 || (hostBase ≤ pa && pa < 0x10000000000000)

/-- The home of a physical address: die 0 to 3, or 4 for the host (R179). -/
def homeOf (pa : Nat) : Nat :=
  if pa < 0x8000000000 then pa / 0x2000000000
  else if pa < 0x18000000000 then (pa - 0x8000000000) / 0x4000000000
  else 4

def sectorOf (pa : Nat) : Nat := pa / 64

def State.rdByte (s : State) (pa : Nat) : Byte := s.mem.get pa memDefault
def State.rdBytes (s : State) (pa n : Nat) : List Byte := (List.range n).map (fun i => s.rdByte (pa + i))
def State.rdNat (s : State) (pa n : Nat) : Nat := natOfBytes (s.rdBytes pa n)

/-- Write bytes given by physical address. -/
def memWrite (m : SMap Byte) (d : List (Nat × Byte)) : SMap Byte :=
  d.foldl (fun m e => m.set memDefault e.1 e.2) m

/-- Bytes from a start address on. -/
def bytesAt (pa : Nat) : List Byte → List (Nat × Byte)
  | [] => []
  | b :: bs => (pa, b) :: bytesAt (pa + 1) bs

/-! ## Commits (R200, R194, R215) -/

/-- The number of commits a sector's home has made. -/
def Vis.version (v : Vis) (sector : Nat) : Nat := (v.commits.filter (fun c => c.sector == sector)).length

/-- The latest lease end recorded for a sector. -/
def Vis.leaseEnd (v : Vis) (sector : Nat) : Nat :=
  (v.leases.filter (fun l => l.sector == sector)).foldl (fun a l => max a l.till) 0

def patch (base : Nat) (val : List Byte) (d : List (Nat × Byte)) : List Byte :=
  d.foldl (fun v e => if base ≤ e.1 then v.set (e.1 - base) e.2 else v) val

/-- Monitors armed on a sector fire (R215). -/
def fireMonitors (s : State) (sector : Nat) : State :=
  let hit := s.vis.mons.filter (fun e => e.sector == sector)
  let s := hit.foldl (fun s e => s.updGroup e.gid (fun g => { g with monitors := g.monitors.set .none e.lane .fired })) s
  { s with vis := { s.vis with mons := s.vis.mons.filter (fun e => e.sector != sector) } }

/-- A commit by any party but the lane itself breaks reservations on the sector (R194). -/
def breakResv (s : State) (sector : Nat) (who? : Option (Nat × Nat)) : State :=
  let mine (e : WatchEntry) : Bool := who? == some (e.gid, e.lane)
  let hit := s.vis.resvs.filter (fun e => e.sector == sector && !mine e)
  let s := hit.foldl (fun s e => s.updGroup e.gid (fun g => { g with resv := g.resv.set .none e.lane .broken })) s
  { s with vis := { s.vis with resvs := s.vis.resvs.filter (fun e => e.sector != sector || mine e) } }

/-- GWCT of a commit to a sector made now (R200); on the host it is the commit time (R210). -/
def State.gwctOf (s : State) (sector : Nat) : Nat :=
  if homeOf (sector * 64) = 4 then s.now else max s.now (s.vis.leaseEnd sector)

/-- One commit of bytes of one sector at its home, by a lane of cluster `cl?` or by another agent. -/
def homeCommit (s : State) (who? : Option (Nat × Nat)) (cl? : Option Nat) (sector : Nat) (d : List (Nat × Byte)) : State :=
  let g := s.gwctOf sector
  let s := { s with mem := memWrite s.mem d, vis := { s.vis with commits := ⟨sector, s.now, g⟩ :: s.vis.commits } }
  let ver := s.vis.version sector
  let refresh (c : Copy) : Copy :=
    if c.sector == sector && cl? == some (clusterOf c.core) then
      { c with val := patch (sector * 64) c.val d, version := ver }
    else c
  let s := { s with vis := { s.vis with copies := s.vis.copies.map refresh } }
  fireMonitors (breakResv s sector who?) sector

/-- Split bytes into one list per sector, sectors ascending. -/
def bySector (d : List (Nat × Byte)) : List (Nat × List (Nat × Byte)) :=
  let secs := d.foldl (fun m e => SMap.put m (sectorOf e.1) ()) ([] : SMap Unit)
  secs.map (fun e => (e.1, d.filter (fun x => sectorOf x.1 == e.1)))

/-- The device itself stores bytes, sector by sector. -/
def devWrite (s : State) (pa : Nat) (bs : List Byte) : State :=
  (bySector (bytesAt pa bs)).foldl (fun s e => homeCommit s none none e.1 e.2) s

/-! ## Translation (R181 to R186) -/

inductive Access where | read | write | rmw | fetch
  deriving DecidableEq, Repr, Inhabited

/-- Permission bits X, W, RD that an access needs (R184). -/
def Access.need : Access → BitVec 3
  | .read => 1
  | .write => 2
  | .rmw => 3
  | .fetch => 4

def Access.wrote : Access → Bool
  | .write | .rmw => true
  | _ => false

structure Level where
  lo : Nat        -- lowest index bit
  n : Nat         -- index bits
  deriving DecidableEq, Repr, Inhabited

/-- Index bits of level 0 to 4 (R182). -/
def level (stage2 : Bool) : Nat → Level
  | 0 => ⟨43, if stage2 then 9 else 13⟩
  | 1 => ⟨30, 13⟩
  | 2 => ⟨26, 4⟩
  | 3 => ⟨21, 5⟩
  | _ => ⟨17, 4⟩

/-- log2 of the size of the table of a level. -/
def tableLog (stage2 : Bool) (l : Nat) : Nat := (level stage2 l).n + 3

/-- Whether a frame may back a stage-2 leaf of the context's partition (R287). -/
def channelsOk (s : State) (ctx page17 n17 : Nat) : Bool :=
  let p := (s.getCtx ctx).part
  if p = 0 then true
  else match s.ctl.partitions.find? (fun x => x.part == p) with
    | none => true
    | some pt => (List.range n17).all (fun i =>
        (page17 + i) * 131072 < 0x8000000000 && pt.channels.getLsbD (Config.channelOf (page17 + i) % 256))

/-- Whether a table entry keeps R183, apart from its V and REFUSE. -/
def entryOk (s : State) (ctx : Nat) (stage2 : Bool) (l e : Nat) : Bool :=
  let leaf := bitsOf e 1 1 == 1
  let v := bitsOf e 0 1 == 1
  let addr := bitsOf e 7 45 * 128
  (leaf || l ≠ 4) && (!leaf || l ≠ 0) &&
  (if leaf then
     addr % 2 ^ (level stage2 l).lo == 0 &&
     (if stage2 then
        (!v || bitsOf e 2 1 == 0) &&
        (!v || (populated addr && channelsOk s ctx (addr / 131072) (2 ^ ((level stage2 l).lo - 17))))
      else bitsOf e 52 12 == 0 && bitsOf e 6 1 == 0 && bitsOf e 2 1 == 0)
   else
     bitsOf e 52 12 == 0 && bitsOf e 3 4 == 0 && (bitsOf e 2 1 == 0 || (stage2 && !v)) &&
     (!v || addr % 2 ^ tableLog stage2 (l + 1) == 0) && (!v || !stage2 || populated addr))

/-- Outcome of one stage. -/
inductive Walk where
  | leaf (entry entryPa lo : Nat)
  | none                 -- V = 0 or malformed
  | refused
  | stalled (ipage : Nat)
  | blocked (f : LaneFault)
  deriving DecidableEq, Repr, Inhabited

/-- The stage-2 walk of an intermediate address from a level on. -/
def walk2 (s : State) (ctx ia : Nat) : Nat → Nat → Nat → Walk
  | 0, _, _ => .none
  | fuel + 1, l, table =>
    let lv := level true l
    let pa := table + 8 * bitsOf ia lv.lo lv.n
    let e := s.rdNat pa 8
    if !entryOk s ctx true l e then .none
    else if bitsOf e 0 1 = 0 then (if bitsOf e 2 1 = 1 then .refused else .none)
    else if bitsOf e 1 1 = 1 then .leaf e pa lv.lo
    else walk2 s ctx ia fuel (l + 1) (bitsOf e 7 45 * 128)

/-- Zero the frames of a page whose owner record differs (R185, R20). -/
def claimFrames (s : State) (frame n owner : Nat) : State :=
  (List.range n).foldl (fun s i =>
    let f := frame + i
    if s.vis.frameOwner.get f 0 = owner then s
    else { s with
      mem := s.mem.clearRange (f * 131072) ((f + 1) * 131072)
      vis := { s.vis with
        frameOwner := s.vis.frameOwner.set 0 f owner
        copies := s.vis.copies.filter (fun c => c.sector / 2048 != f) } }) s

/-- Whether the agent's earlier stall still stands (R23). -/
def stallStands (s : State) (who : Agent) : Option Nat :=
  (s.vis.stalls.find? (fun x => x.who == who && !x.freed)).map (fun x => x.ipage)

/-- Result of stage 2 on one address. -/
inductive Tr2 where
  | ok (pa : Nat)
  | refused
  | stalled (ipage : Nat)
  | owner
  deriving DecidableEq, Repr, Inhabited

def cacheable (core : Nat) : Bool := core < 288

def stage2 (s : State) (core ctx ia : Nat) (acc : Access) : State × Tr2 :=
  let ip := ia / 131072
  let need := acc.need
  match s.vis.tlb.find? (fun t => t.core == core && t.ctx == ctx && t.stage2 && t.page == ip) with
  | some t =>
    if t.perms &&& need ≠ need then (s, .stalled ip)
    else if t.owner ≠ ctx then (s, .owner)
    else (s, .ok (t.out * 131072 + ia % 131072))
  | none =>
    let root := (s.getCtx ctx).s2root.toNat
    if root = 0 then (s, .stalled ip)
    else match walk2 s ctx ia 5 0 root with
      | .leaf e _ lo =>
        let perms : BitVec 3 := BitVec.ofNat 3 (bitsOf e 3 3)
        let owner := bitsOf e 52 12
        let base := bitsOf e 7 45 * 128
        let pa := base + ia % 2 ^ lo
        if perms &&& need ≠ need then (s, .stalled ip)
        else if owner ≠ ctx then (s, .owner)
        else
          let s := claimFrames s (base / 131072) (2 ^ (lo - 17)) owner
          let s := if cacheable core then
              { s with vis := { s.vis with tlb := ⟨core, ctx, true, ip, pa / 131072, perms, owner⟩ :: s.vis.tlb } }
            else s
          (s, .ok pa)
      | .refused => (s, .refused)
      | _ => (s, .stalled ip)

/-- Result of both stages. -/
inductive Tr where
  | ok (pa ipage : Nat)
  | fault (f : LaneFault)
  | stall (ipage : Nat)
  deriving DecidableEq, Repr, Inhabited

def pageFault (va : Nat) (acc : Access) : LaneFault := ⟨.pageFault, va, if acc.wrote then 1 else 0⟩

/-- The stage-1 walk: each entry is read at an intermediate address through stage 2. -/
def walk1 (core ctx va : Nat) (acc : Access) : Nat → Nat → Nat → State → State × (Tr ⊕ (Nat × BitVec 3))
  | 0, _, _, s => (s, .inl (.fault (pageFault va acc)))
  | fuel + 1, l, table, s =>
    let lv := level false l
    let (s, r) := stage2 s core ctx (table + 8 * bitsOf va lv.lo lv.n) .read
    match r with
    | .refused => (s, .inl (.fault (pageFault va acc)))
    | .stalled ip => (s, .inl (.stall ip))
    | .owner => (s, .inl (.fault ⟨.rights, 0, 0⟩))
    | .ok pa =>
      let e := s.rdNat pa 8
      if bitsOf e 0 1 = 0 || !entryOk s ctx false l e then (s, .inl (.fault (pageFault va acc)))
      else if bitsOf e 1 1 = 1 then
        (s, .inr (bitsOf e 7 45 * 128 + va % 2 ^ lv.lo, BitVec.ofNat 3 (bitsOf e 3 3)))
      else walk1 core ctx va acc fuel (l + 1) (bitsOf e 7 45 * 128) s

/-- Stage 1 of an address: its intermediate address. -/
def stage1 (s : State) (core ctx va : Nat) (acc : Access) : State × (Tr ⊕ Nat) :=
  let vp := va / 131072
  let need := acc.need
  match s.vis.tlb.find? (fun t => t.core == core && t.ctx == ctx && !t.stage2 && t.page == vp) with
  | some t =>
    if t.perms &&& need ≠ need then (s, .inl (.fault (pageFault va acc)))
    else (s, .inr (t.out * 131072 + va % 131072))
  | none =>
    let root := (s.getCtx ctx).s1root.toNat
    if root = 0 ∨ 2 ^ 56 ≤ va then (s, .inl (.fault (pageFault va acc)))
    else
      let (s, r) := walk1 core ctx va acc 5 0 root s
      match r with
      | .inl t => (s, .inl t)
      | .inr (ia, perms) =>
        if perms &&& need ≠ need then (s, .inl (.fault (pageFault va acc)))
        else
          let s := if cacheable core then
              { s with vis := { s.vis with tlb := ⟨core, ctx, false, vp, ia / 131072, perms, 0⟩ :: s.vis.tlb } }
            else s
          (s, .inr ia)

/-- Both stages, without stall bookkeeping. -/
def translateRaw (s : State) (core ctx va : Nat) (acc : Access) : State × Tr :=
  let (s, r) := stage1 s core ctx va acc
  match r with
  | .inl t => (s, t)
  | .inr ia =>
    let (s, r) := stage2 s core ctx ia acc
    match r with
    | .ok pa => (s, .ok pa (ia / 131072))
    | .refused => (s, .fault (pageFault va acc))
    | .stalled ip => (s, .stall ip)
    | .owner => (s, .fault ⟨.rights, 0, 0⟩)

/-! ## Notices and logs (R15 to R17, R285, R286) -/

/-- An event record, before its SEQ and TIME. -/
structure Record where
  ctx : Nat
  kind : Nat
  cls : Nat
  detail : Nat
  page : Nat
  deriving DecidableEq, Repr, Inhabited

def Record.bytes (r : Record) (seq time : Nat) : List Byte :=
  bytesOfNat 8 seq ++ bytesOfNat 8 time ++ bytesOfNat 4 r.ctx ++ bytesOfNat 1 r.kind ++ bytesOfNat 1 r.cls ++
    bytesOfNat 2 r.detail ++ bytesOfNat 8 r.page

/-- Append a record to the log whose header lies where `tr` puts offsets. None: the header or the record
cannot be reached. The flag says whether the record was dropped. -/
def logAppend (s : State) (tr : State → Nat → State × Option Nat) (rec : List Byte) : State × Bool :=
  let (s, h) := tr s 0
  match h with
  | none => (s, true)
  | some h =>
    let wr := s.rdNat h 8
    let rd := s.rdNat (h + 8) 8
    if (wr + 2 ^ 64 - rd) % 2 ^ 64 = 1024 then
      (devWrite s (h + 16) [s.rdByte (h + 16) ||| 1], true)
    else
      let (s, p) := tr s (64 + 32 * (wr % 1024))
      match p with
      | none => (s, true)
      | some p => (devWrite (devWrite s p rec) h (bytesOfNat 8 ((wr + 1) % 2 ^ 64)), false)

/-- Set the D bit of the stage-2 leaf of a page (R183): where its entry lies, if the bit was clear. -/
def markDirty (s : State) (ctx ipage : Nat) : State × Bool :=
  match walk2 s ctx (ipage * 131072) 5 0 (s.getCtx ctx).s2root.toNat with
  | .leaf e pa _ => if bitsOf e 6 1 = 1 then (s, false) else ({ s with mem := s.mem.set memDefault pa (s.rdByte pa ||| 0x40) }, true)
  | _ => (s, false)

/-- Translation of an access of the device on behalf of an operator context, where a stall counts as a
failure. A write sets D; an operator's own pages are in no dirty-page log. -/
def reach (ctx va : Nat) (acc : Access) (s : State) (off : Nat) : State × Option Nat :=
  let (s, r) := translateRaw s 999 ctx (va + off) acc
  match r with
  | .ok pa ip => (if acc.wrote then (markDirty s ctx ip).1 else s, some pa)
  | _ => (s, none)

def nextSeq (s : State) : State × Nat :=
  ({ s with ctl := { s.ctl with seq := (s.ctl.seq + 1) % 2 ^ 64 } }, s.ctl.seq)

/-- Post a record to an operator context's notice log (R16). -/
def postOperator (s : State) (op : Nat) (r : Record) : State :=
  let (s, q) := nextSeq s
  let nlog := (s.getCtx op).nlog
  if nlog.getLsbD 0 then
    let (s, dropped) := logAppend s (reach op (bitsOf nlog.toNat 6 50 * 64) .write) (r.bytes q s.now)
    if dropped then s.count op 0x000D 1 else s
  else s.count op 0x000D 1

/-- The SR-IOV function of a context's partition (R325). -/
def State.func (s : State) (fn : Nat) : Func := (s.ctl.funcs.find? (fun f => f.fn == fn)).getD default
def State.updFunc (s : State) (fn : Nat) (f : Func → Func) : State :=
  { s with ctl := { s.ctl with funcs := updWhere (fun x => x.fn == fn) f s.ctl.funcs } }

def State.send (s : State) (m : OutMsg) : State := { s with fab := { s.fab with out := m :: s.fab.out } }

/-- Post a record to the interrupt log of a context's function, with its interrupt (R286). -/
def postOwner (s : State) (ctx vec : Nat) (r : Record) : State :=
  let (s, q) := nextSeq s
  let fn := (s.getCtx ctx).part
  let f := s.func fn
  let base := f.ilog.toNat / 64 * 64
  let (s, dropped) :=
    if base = 0 ∨ hostBase + base + 32832 > 0x10000000000000 then (s, true)
    else logAppend s (fun s o => (s, some (hostBase + base + o))) (r.bytes q s.now)
  let s := if dropped then s.count ctx 0x000D 1 else s
  if f.resident then s.send (.msix fn vec) else s.updFunc fn (fun f => { f with pending := true })

/-- The operator context of a partition. -/
def State.operatorOf (s : State) (part : Nat) : Option Nat :=
  (s.ctl.partitions.find? (fun p => p.part == part)).map (fun p => p.operator)

/-- Post to the operator of a context's partition. -/
def postToOperator (s : State) (ctx : Nat) (r : Record) : State :=
  match s.operatorOf (s.getCtx ctx).part with
  | none => s
  | some op => postOperator s op r

/-- Post to the operator of every partition; CTX is the receiver's number (R285). -/
def postAllOperators (s : State) (kind detail page : Nat) : State :=
  s.ctl.partitions.foldl (fun s p => postOperator s p.operator ⟨p.operator, kind, 0, detail, page⟩) s

/-- A stage-2 fault stalls an access: one notice for each context and page (R23). -/
def noteStall (s : State) (who : Agent) (ctx ip : Nat) : State :=
  let known := s.vis.stalls.any (fun x => x.ctx == ctx && x.ipage == ip && !x.freed)
  let st := s.vis.stalls.filter (fun x => x.who != who) ++ [⟨ctx, ip, who, false⟩]
  let s := { s with vis := { s.vis with stalls := st } }
  if known then s else postToOperator s ctx ⟨ctx, 7, 0, 0, ip⟩

/-- Translate for an agent, with R23's stalls. -/
def translate (s : State) (who : Agent) (core ctx va : Nat) (acc : Access) : State × Tr :=
  match stallStands s who with
  | some ip => (s, .stall ip)
  | none =>
    let s := { s with vis := { s.vis with stalls := s.vis.stalls.filter (fun x => x.who != who) } }
    let (s, r) := translateRaw s core ctx va acc
    match r with
    | .stall ip => (noteStall s who ctx ip, .stall ip)
    | r => (s, r)

/-- Cut a range of bytes at sector boundaries. -/
def chunks : Nat → Nat → Nat → List (Nat × Nat)
  | 0, _, _ => []
  | fuel + 1, va, n =>
    let k := 64 - va % 64
    if n = 0 then [] else if n ≤ k then [(va, n)] else (va, k) :: chunks fuel (va + k) (n - k)

/-- Translate every piece of a range; none is used before all are translated. -/
def translateAll (who : Agent) (core ctx : Nat) (acc : Access) :
    List (Nat × Nat) → State → State × (Tr ⊕ List (Nat × Nat × Nat))
  | [], s => (s, .inr [])
  | (va, n) :: cs, s =>
    let (s, r) := translate s who core ctx va acc
    match r with
    | .ok pa ip =>
      let (s, r2) := translateAll who core ctx acc cs s
      match r2 with
      | .inr l => (s, .inr ((pa, n, ip) :: l))
      | .inl t => (s, .inl t)
    | t => (s, .inl t)

/-- Read `n` bytes at a virtual address, at their homes. -/
def readVirt (s : State) (who : Agent) (core ctx va n : Nat) (acc : Access) : State × (Tr ⊕ List Byte) :=
  let (s, r) := translateAll who core ctx acc (chunks (n / 64 + 2) va n) s
  match r with
  | .inl t => (s, .inl t)
  | .inr l => (s, .inr (l.foldr (fun e acc => s.rdBytes e.1 e.2.1 ++ acc) []))

end Sys2Proof.Machine
end

