-- ==== Sys2Proof/Machine/Regs.lean ====
section
/-! DEFINITION. The registers of a group (R34, R39, R116), its store queue and spill area (R123, R124,
R200), and the sources of a load (R202, R203). -/

namespace Sys2Proof.Machine

/-! ## Registers -/

/-- Word i of lane l of the register window (R116). -/
def Group.vreg (g : Group) (i l : Nat) : Word := g.win.get (i * g.hdr.width + l) 0
def Group.setV (g : Group) (i l : Nat) (x : Word) : Group := { g with win := g.win.set 0 (i * g.hdr.width + l) x }
def Group.sregOf (g : Group) (i : Nat) : Word := g.sreg.get i 0
def Group.setS (g : Group) (i : Nat) (x : Word) : Group := { g with sreg := g.sreg.set 0 i x }
/-- V registers allotted (R40). -/
def Group.vregs (g : Group) : Nat := g.hdr.vregs8 * 8
/-- Bytes of the register window (R60). -/
def Group.winBytes (g : Group) : Nat := g.vregs * 4 * g.hdr.width
def Group.lanes (g : Group) : Mask := maskBelow g.hdr.width

/-- P0 to P7 as masks; P7 is all ones (R34). -/
def Group.pred (g : Group) (p : Nat) : Mask := if p = 7 then BitVec.allOnes 128 else g.preds.get p 0
/-- Write a predicate on some lanes; P7 discards (R34). -/
def Group.setPred (g : Group) (p : Nat) (ls vals : Mask) : Group :=
  if p = 7 then g
  else { g with preds := g.preds.set 0 p ((g.pred p &&& ~~~ls) ||| (vals &&& ls)) }
def Group.kreg (g : Group) (k : Nat) : Mask := g.kregs.get k 0
def Group.setK (g : Group) (k : Nat) (m : Mask) : Group := { g with kregs := g.kregs.set 0 k m }
def Group.freg (g : Group) (f : Nat) : Word := g.fregs.get f 0
def Group.setF (g : Group) (f : Nat) (x : Word) : Group := { g with fregs := g.fregs.set 0 f x }

def Group.split? (g : Group) (e : Nat) : Option Split := g.splits.getD e none
def Group.setSplit (g : Group) (e : Nat) (sp : Option Split) : Group := { g with splits := g.splits.set e sp }
/-- Live splits with their entries, lowest entry first. -/
def Group.live (g : Group) : List (Nat × Split) :=
  (List.range 4).filterMap (fun e => (g.split? e).map (fun sp => (e, sp)))
/-- Lanes in the group that have not exited. -/
def Group.liveLanes (g : Group) : Mask := g.lanes &&& ~~~g.exited
/-- A progress event (R96). -/
def Group.progress (g : Group) : Group := { g with wdog := 0 }

/-- Write result words to V registers from `i` up, or the scalar's words. -/
def Group.writeWords (g : Group) (kind : Bool) (i l : Nat) : List Word → Group
  | [] => g
  | x :: xs => ((if kind then g.setS i x else g.setV i l x).writeWords kind (i + 1) l) xs

/-! ## Latches (R45) -/

def latchKey (k w l : Nat) : Nat := (4 * k + w) * 128 + l
def Clause.latchOf (c : Clause) (k w l : Nat) : Word := c.latch.get (latchKey k w l) 0
def Clause.setLatch (c : Clause) (k l : Nat) : Nat → List Word → Clause
  | _, [] => c
  | w, x :: xs =>
    let c' := if w < 4 then { c with latch := c.latch.set 0 (latchKey k w l) x } else c
    c'.setLatch k l (w + 1) xs

/-! ## Splits' queues and loads -/

/-- The live split that holds a lane. -/
def Group.splitOfLane (g : Group) (l : Nat) : Option (Nat × Split) :=
  g.live.find? (fun e => e.2.mask.getLsbD l)

/-- The lanes whose queue entries form the queue of lane l's split: its split's lanes. A lane that has
exited keeps its entries; they follow no split. -/
def Group.mates (g : Group) (l : Nat) : Mask :=
  match g.splitOfLane l with
  | some e => e.2.mask
  | none => BitVec.twoPow 128 l

def Group.queueOf (g : Group) (m : Mask) : List QEntry := g.queue.filter (fun e => m.getLsbD e.lane)
def Group.loadsOf (g : Group) (m : Mask) : List PLoad := g.loads.filter (fun e => m.getLsbD e.lane)

def distinct (l : List Nat) : List Nat := l.foldl (fun a x => if a.contains x then a else a ++ [x]) []

/-- Outstanding loads of a split (R29): issues with a load, and each lane of an atomic (R193). -/
def Group.loadCount (g : Group) (m : Mask) : Nat :=
  (distinct ((g.loadsOf m).map (fun l => l.tag))).length +
    ((g.queueOf m).filter (fun e => match e.kind with | .atom _ _ | .cas _ _ => true | _ => false)).length

/-- Outstanding stores of a split (R29). -/
def Group.storeCount (g : Group) (m : Mask) : Nat :=
  (distinct (((g.queueOf m).filter (fun e => match e.kind with | .store | .sc _ => true | _ => false)).map
    (fun e => e.tag))).length +
    ((g.queueOf m).filter (fun e => match e.kind with | .atom _ _ | .cas _ _ => true | _ => false)).length

/-- The byte that the youngest covering store entry older than `tag` holds (R202, source 1). -/
def forward (q : List QEntry) (tag pa : Nat) : Option Byte :=
  q.foldl (fun a e => if e.tag < tag then (match e.data.get? pa with | some b => some b | none => a) else a) none

/-- An entry older than `tag` whose value for these bytes is not known before it commits. -/
def blockedByAtomic (q : List QEntry) (tag pa n : Nat) : Bool :=
  q.any (fun e => e.tag < tag && pa < e.pa + 4 && e.pa < pa + n &&
    (match e.kind with | .store => false | _ => true))

/-- Read bytes as the split sees them: its own queue first, then the home (R202). -/
def readOwn (s : State) (q : List QEntry) (tag pa n : Nat) : List Byte :=
  (List.range n).map (fun i => (forward q tag (pa + i)).getD (s.rdByte (pa + i)))

/-- Whether an engine owns a sector (R208). -/
def Vis.isOwned (v : Vis) (sector : Nat) : Bool := v.owned.any (fun o => o.sector == sector)

/-! ## Sector pieces of a contiguous write -/

/-- Cut bytes at sector boundaries of virtual addresses. -/
def cutSectors : Nat → Nat → List Byte → List (Nat × List Byte)
  | 0, _, _ => []
  | fuel + 1, va, bs =>
    match bs with
    | [] => []
    | _ =>
      let k := 64 - va % 64
      (va, bs.take k) :: cutSectors fuel (va + k) (bs.drop k)

/-- Translate the pieces of a write. -/
def translatePieces (who : Agent) (core ctx : Nat) (acc : Access) :
    List (Nat × List Byte) → State → State × (Tr ⊕ List (Nat × Nat × Nat × List Byte))
  | [], s => (s, .inr [])
  | (va, bs) :: cs, s =>
    let (s, r) := translate s who core ctx va acc
    match r with
    | .ok pa ip =>
      let (s, r2) := translatePieces who core ctx acc cs s
      match r2 with
      | .inr l => (s, .inr ((va, pa, ip, bs) :: l))
      | .inl t => (s, .inl t)
    | t => (s, .inl t)

/-- The map from physical addresses to the bytes of one piece. -/
def pieceData (pa : Nat) (bs : List Byte) : SMap Byte := bytesAt pa bs

/-- Store-queue entries of translated pieces. -/
def pieceEntries (lane tag : Nat) (l : List (Nat × Nat × Nat × List Byte)) : List QEntry :=
  l.map (fun e => ⟨lane, tag, e.2.1, e.1, e.2.2.1, pieceData e.2.1 e.2.2.2, .store, none⟩)

/-! ## Spill area (R123, R124) -/

def Group.fs (g : Group) : Nat := 4096 + 256 * g.hdr.width
def Group.bb (g : Group) : Nat := 4 * g.fs + 4096
def Group.levelAt (g : Group) (d l : Nat) : Nat := g.spillBase + g.bb + d * 4 * g.hdr.width + 4 * l
def Group.levelFits (g : Group) (d : Nat) : Bool :=
  g.bb + (d + 1) * 4 * g.hdr.width + g.burst ≤ g.spillLim
/-- CX.SPILLUSE MAXDEPTH: the largest call depth of any lane (R121). -/
def Group.maxDepth (g : Group) : Nat := g.depth.foldl (fun a e => max a e.2) 0
def Group.frameAt (g : Group) (slot : Nat) : Nat := g.spillBase + slot * g.fs
def Group.defAt (g : Group) (k : Nat) : Nat := g.spillBase + 4 * g.fs + 32 * k
def Group.defFits (g : Group) (k : Nat) : Bool := k < 124 && 4 * g.fs + 32 * (k + 1) ≤ g.spillLim
/-- Deferral records in use (R124). -/
def Group.defsUsed (g : Group) : Nat := g.defs.foldl (fun a d => max a (d.slot + 1)) 0
/-- The lowest record slots that hold no valid record. -/
def Group.freeDefs (g : Group) : List Nat :=
  (List.range 124).filter (fun k => !g.defs.any (fun d => d.slot == k))

/-- The issue number and access tag that comes next. -/
def Group.bump (g : Group) : Group := { g with issues := g.issues + 1 }

end Sys2Proof.Machine
end

