-- ==== Sys2Proof/Machine/Splits.lean ====
section
/-! DEFINITION. The split table: dividing, deferring, merging and joining splits (R77 to R82, R90 to R93),
barriers, rendezvous and the exit of lanes (R62, R95, R108, R237). -/

namespace Sys2Proof.Machine

/-! ## Barriers (R62) -/

def barPending (g : Group) (b : Barrier) (l : Nat) : Bool :=
  b.marks.get (g.gidx * 128 + l) 0 == (b.ph + 1) % 65536

/-- A group has arrived: it has a live lane, and every live lane pends. -/
def barArrived (g : Group) (b : Barrier) : Bool :=
  g.liveLanes != 0 && (lanesOf g.liveLanes).all (barPending g b)

def State.groupsOf (s : State) (blk : Nat) : List Group := s.groups.filter (fun g => g.block == blk)

/-- Complete a phase when the arrived groups reach the expected count (R62). -/
def barTest (s : State) (blk n : Nat) : State :=
  match s.block? blk with
  | none => s
  | some b =>
    let bar := b.bars.get n default
    match bar.expected with
    | none => s
    | some e =>
      let gs := s.groupsOf blk
      let need := if e = 0 then (gs.filter (fun g => g.liveLanes != 0)).length else e
      if need ≤ (gs.filter (fun g => barArrived g bar)).length then
        let pend := gs.filter (fun g => (lanesOf g.lanes).any (barPending g bar))
        let s := pend.foldl (fun s g => s.updGroup g.gid Group.progress) s
        s.updBlock blk (fun b => { b with bars := b.bars.set default n { bar with ph := (bar.ph + 1) % 65536, expected := none } })
      else s

def barTestAll (s : State) (blk : Nat) : State := (List.range 16).foldl (fun s n => barTest s blk n) s

/-! ## Rendezvous (R237) -/

def State.forkOf (s : State) (gid : Nat) : Option ForkSet := s.mx.forks.find? (fun f => f.gid == gid && f.group)
def State.updFork (s : State) (id : Nat) (f : ForkSet → ForkSet) : State :=
  { s with mx := { s.mx with forks := updWhere (fun x => x.id == id) f s.mx.forks } }

def wakeRdv (n : Nat) (sp : Split) : Split :=
  match sp.st with
  | .parked p => if p.kind == .rdv n then { sp with st := .parked { p with wake := some 0 } } else sp
  | _ => sp

/-- Complete rendezvous n of a fork set when every live member has arrived. -/
def rdvTest (s : State) (id n : Nat) : State :=
  match s.mx.forks.find? (fun f => f.id == id) with
  | none => s
  | some f =>
    let r := f.rdvs.get n default
    let g := s.getGroup f.gid
    let mark := (r.ph + 1) % 65536
    let gOk := !f.group || (g.liveLanes != 0 && (lanesOf g.liveLanes).all (fun l => r.marks.get l 0 == mark))
    let sOk := !f.seq || r.units.getD 0 false
    let eOk := !f.eng || r.units.getD 1 false
    if gOk && sOk && eOk && (f.group || f.seq || f.eng) then
      let s := s.updFork id (fun f => { f with rdvs := f.rdvs.set default n { r with ph := mark, units := [] } })
      let s := if f.group then s.updGroup f.gid (fun g => { g with splits := g.splits.map (fun o => o.map (wakeRdv n)) }) else s
      let wk (p : Prog) : Prog :=
        match p.park with
        | some q => if q.kind == .rdv n then { p with park := some { q with wake := some 0 } } else p
        | none => p
      let s := if f.seq then s.updProg f.cluster true wk else s
      if f.eng then s.updProg f.cluster false wk else s
    else s

/-- Re-evaluate a set whose membership fell; it ends with its last unit or member (R236, R237). -/
def forkTest (s : State) (id : Nat) : State :=
  let s := (List.range 8).foldl (fun s n => rdvTest s id n) s
  match s.mx.forks.find? (fun f => f.id == id) with
  | none => s
  | some f =>
    if f.seq || f.eng then s
    else
      let s := { s with mx := { s.mx with forks := s.mx.forks.filter (fun x => x.id != id),
                                          opCache := s.mx.opCache.filter (fun e => e.cluster != f.cluster || e.ctx != (s.getGroup f.gid).ctx) } }
      -- splits parked at a rendezvous of the ended set hold no fork set
      s.updGroup f.gid (fun g => { g with splits := g.splits.map (fun o => o.map (fun sp =>
        match sp.st with
        | .parked p => (match p.kind with | .rdv _ => { sp with st := .parked { p with wake := some 0 } } | _ => sp)
        | _ => sp)) })

/-! ## Tokens that no register holds (R224) -/

def tokenWord (cluster serial : Nat) : Word := BitVec.ofNat 32 (cluster * 16777216 + serial)

def State.fHolds (s : State) (ctx cluster serial : Nat) : Bool :=
  s.groups.any (fun g => g.ctx == ctx && g.liveLanes != 0 &&
    (List.range 16).any (fun f => g.freg f == tokenWord cluster serial))

/-- Retire ended FAULTED and CANCELLED tokens that no F register of the context holds. -/
def retireTokens (s : State) (ctx : Nat) : State :=
  { s with mx := { s.mx with tokens := s.mx.tokens.filter (fun t =>
      t.ctx != ctx || (match t.st with | .faulted | .cancelled => s.fHolds ctx t.cluster t.serial | _ => true)) } }

/-! ## Merging (R82, R91, R207) -/

def maxSeen (a b : SMap Nat) : SMap Nat := b.foldl (fun m e => m.set 0 e.1 (max (m.get e.1 0) e.2)) a

/-- The first split keeps its age, SFMT and place; it takes the other's lanes and the larger times. -/
def Split.absorb (a b : Split) : Split :=
  { a with mask := a.mask ||| b.mask, maxgwct := max a.maxgwct b.maxgwct, lastsend := max a.lastsend b.lastsend,
           acqt := max a.acqt b.acqt, seen := maxSeen a.seen b.seen }

def Split.idle (sp : Split) : Bool := sp.st == .ready && !sp.stopped && !sp.joined && sp.clause.isNone

def canMerge (a b : Split) : Bool :=
  a.idle && b.idle && a.offset == b.offset && a.fmt == b.fmt && a.handler == b.handler

/-- The first pair of entries that merges under R82: the older first. -/
def Group.mergePair (g : Group) : Option (Nat × Split × Nat × Split) :=
  g.live.findSome? (fun x => g.live.findSome? (fun y =>
    if x.1 ≠ y.1 && x.2.age < y.2.age && canMerge x.2 y.2 then some (x.1, x.2, y.1, y.2) else none))

/-- Merge while a pair does; each merge is an end of a split, a progress event (R77, R96). -/
def mergeAll : Nat → Group → Group
  | 0, g => g
  | n + 1, g =>
    match g.mergePair with
    | none => g
    | some (e, a, e', b) => mergeAll n (((g.setSplit e (some (a.absorb b))).setSplit e' none).progress)

/-! ## Deferral records (R79, R80) -/

def defBytes (off : Int) (fmt sfmt : Word) (parked : Option Nat) (handler : Bool) (mask : Mask) : List Byte :=
  bytesOfNat 4 (BitVec.ofInt 32 off).toNat ++ bytesOfWord fmt ++ bytesOfWord sfmt ++
    bytesOfNat 1 ((if parked.isSome then 1 else 0) + (if handler then 2 else 0)) ++ bytesOfNat 1 (parked.getD 0) ++
    [0, 0] ++ bytesOfNat 16 mask.toNat

def DefRec.bytes (d : DefRec) : List Byte := defBytes d.offset d.fmt d.sfmt d.parked d.handler.isSome d.mask

/-- Lanes live in splits or other records. -/
def Group.placedLanes (g : Group) (but : Nat) : Mask :=
  (g.live.foldl (fun m e => m ||| e.2.mask) 0) |||
    ((g.defs.filter (fun d => d.slot != but)).foldl (fun m d => m ||| d.mask) 0)

/-- The split a record becomes when it is read back as it stands (R80). -/
def readRecord (s : State) (g : Group) (entry : Nat) (d : DefRec) : State × Option Split :=
  let va := g.defAt d.slot
  let (s, r) := translateRaw s g.core g.ctx va .read
  let bs := match r with
    | .ok pa _ => readOwn s g.queue g.issues pa 32
    | _ => d.bytes
  let mask := BitVec.ofNat 128 (leAt bs 16 16) &&& g.liveLanes &&& ~~~ g.placedLanes d.slot
  let h := if bitsOf (leAt bs 12 1) 1 1 = 1 then some (d.handler.getD entry) else none
  if mask = 0 then (s, none)
  else (s, some {
    offset := leAt bs 0 4, mask := mask, fmt := BitVec.ofNat 32 (leAt bs 4 4), sfmt := BitVec.ofNat 32 (leAt bs 8 4),
    age := g.births, st := if d.clause.isSome then .mid else .ready, stopped := false, handler := h, joined := false, vect := none,
    clause := d.clause, maxgwct := d.maxgwct, lastsend := d.lastsend, acqt := d.acqt, seen := d.seen })

/-- Fill free entries from valid records without PARKED, most recently written first (R80). -/
def readback : Nat → State → Nat → State
  | 0, s, _ => s
  | n + 1, s, gid =>
    let g := s.getGroup gid
    match (List.range 4).find? (fun e => (g.split? e).isNone), g.defs.reverse.find? (fun d => d.parked.isNone) with
    | some e, some d =>
      let (s, sp) := readRecord s g e d
      let s := s.updGroup gid (fun g =>
        { (match sp with | some sp => { (g.setSplit e (some sp)) with births := g.births + 1, holder := if g.holder == some e then none else g.holder } | none => g) with
          defs := g.defs.filter (fun x => x.slot != d.slot) })
      readback n s gid
    | _, _ => s

/-- Result of an act that may trap the whole split or stall it, with nothing committed. -/
inductive Act3 where
  | ok (s : State)
  | trap (f : LaneFault) (s : State)
  | stall (s : State)

/-- Write deferral records for parts that no entry takes; `lane` is the store's lane. -/
def writeRecords (s : State) (who : Agent) (gid : Nat) : List DefRec → State × (Tr ⊕ List QEntry)
  | [] => (s, .inr [])
  | d :: ds =>
    let g := s.getGroup gid
    let (s, r) := translate s who g.core g.ctx (g.defAt d.slot) .write
    match r with
    | .ok pa ip =>
      let (s, r2) := writeRecords s who gid ds
      match r2 with
      | .inr l => (s, .inr (⟨((lanesOf d.mask).head?).getD 0, g.issues, pa, g.defAt d.slot, ip, pieceData pa d.bytes, .store, none⟩ :: l))
      | .inl t => (s, .inl t)
    | t => (s, .inl t)

/-- A part of a division: its lanes and what differs from the divided split. -/
structure SplitPart where
  mask : Mask
  offset : Int
  clause : Option Clause
  handler : Option Nat
  fmt : Word
  sfmt : Word

/-- Place parts in free entries, in order, each younger than every split; defer the rest (R78, R79). -/
def placeParts (s : State) (who : Agent) (gid : Nat) (sp : Split) (parts : List SplitPart) : Act3 :=
  let g := s.getGroup gid
  let free := (List.range 4).filter (fun e => (g.split? e).isNone)
  let now' := (parts.zip free).zip (List.range 128)
  let later := (parts.drop free.length).zip ((List.range 128).drop free.length)
  let slots := g.freeDefs
  let recs := (later.zip slots).map (fun x =>
    let p := x.1.1
    (⟨x.2, p.mask, none, p.handler, g.births + x.1.2, p.offset, p.fmt, p.sfmt, p.clause, sp.maxgwct, sp.lastsend, sp.acqt, sp.seen⟩ : DefRec))
  if later.length ≠ recs.length || recs.any (fun d => !g.defFits d.slot) then .trap ⟨.spillFull, 0, 0⟩ s
  else
    let (s, r) := writeRecords s who gid recs
    match r with
    | .inl (.fault f) => .trap f s
    | .inl _ => .stall s
    | .inr es =>
      .ok (s.updGroup gid (fun g =>
        let g := now'.foldl (fun g x =>
          let p := x.1.1
          g.setSplit x.1.2 (some { sp with mask := p.mask, offset := p.offset, fmt := p.fmt, sfmt := p.sfmt, age := g.births + x.2,
                                            st := if p.clause.isSome then .mid else .ready, stopped := false, handler := p.handler, joined := false, vect := none, clause := p.clause })) g
        { g with defs := g.defs ++ recs, queue := g.queue ++ es, issues := g.issues + 1, births := g.births + parts.length }))

/-- Divide a split (R78): the keeping part stays in its entry; every part takes FMT and SFMT from the
split's FMT. With no other part the split only moves. -/
def divide (s : State) (gid entry : Nat) (sp : Split) (keep : Mask × Int) (others : List (Mask × Int)) : Act3 :=
  let kept (sfmt : Word) : Split :=
    { sp with mask := keep.1, offset := keep.2, sfmt := sfmt, st := .ready, clause := none, joined := false }
  if others.isEmpty then .ok (s.updGroup gid (fun g => g.setSplit entry (some (kept sp.sfmt))))
  else
    let s1 := s.updGroup gid (fun g => g.setSplit entry (some (kept sp.fmt)))
    match placeParts s1 (.unit (.split gid entry)) gid sp
        (others.map (fun o => ⟨o.1, o.2, none, sp.handler, sp.fmt, sp.fmt⟩)) with
    | .ok s => .ok s
    | .trap f s1 => .trap f (s1.updGroup gid (fun g => g.setSplit entry (some sp)))
    | .stall s1 => .stall (s1.updGroup gid (fun g => g.setSplit entry (some sp)))

/-! ## Joins (R91 to R93) -/

def Split.parkedAt (sp : Split) (k : Nat) : Bool :=
  match sp.st with
  | .parked p => p.kind == .joinw k
  | _ => false

/-- One participant of a JOINW: a live split or a record. -/
structure Joiner where
  entry : Option Nat
  rec? : Option Nat
  sp : Split

def DefRec.asSplit (d : DefRec) : Split :=
  { offset := d.offset, mask := d.mask, fmt := d.fmt, sfmt := d.sfmt, age := d.age, st := .ready, stopped := false,
    handler := d.handler, joined := false, vect := none, clause := none, maxgwct := d.maxgwct, lastsend := d.lastsend, acqt := d.acqt, seen := d.seen }

def Group.joiners (g : Group) (k : Nat) : List Joiner :=
  (g.live.filter (fun e => e.2.parkedAt k)).map (fun e => ⟨some e.1, none, e.2⟩) ++
    (g.defs.filter (fun d => d.parked == some k)).map (fun d => ⟨none, some d.slot, d.asSplit⟩)

def oldest (l : List Joiner) : Option Joiner :=
  l.foldl (fun a j => match a with | none => some j | some b => if j.sp.age < b.sp.age then some j else a) none

/-- Complete the JOINW of Kn at one join point if every lane of Kn has exited or is parked there. -/
def joinwAt (g : Group) (k : Nat) (off : Int) (h : Option Nat) : Group :=
  let js := (g.joiners k).filter (fun j => j.sp.offset == off && j.sp.handler == h)
  let all := js.foldl (fun m j => m ||| j.sp.mask) 0
  match oldest js with
  | none => g
  | some o =>
    if g.kreg k &&& ~~~(all ||| g.exited) ≠ 0 then g
    else
      let merged := js.foldl (fun a j => a.absorb j.sp) o.sp
      let res := { merged with fmt := merged.sfmt, st := .ready, joined := true, clause := none }
      let slots := js.filterMap (fun j => j.rec?)
      let es := js.filterMap (fun j => j.entry)
      let g1 := es.foldl (fun g e => g.setSplit e none) g
      let g1 := { g1 with defs := g1.defs.filter (fun d => !slots.contains d.slot) }
      let home := match o.entry with
        | some e => some e
        | none => (es.head?).orElse (fun _ => (List.range 4).find? (fun e => (g1.split? e).isNone))
      match home with
      | some e => (g1.setSplit e (some res)).progress
      | none =>
        { g1 with defs := g1.defs ++ [DefRec.mk ((g1.freeDefs.head?).getD 0) res.mask none res.handler res.age res.offset
            res.fmt res.sfmt none res.maxgwct res.lastsend res.acqt res.seen] }.progress

/-- Test every JOINW parked on Kn (R93). -/
def joinwTest (g : Group) (k : Nat) : Group :=
  (g.joiners k).foldl (fun g j => joinwAt g k j.sp.offset j.sp.handler) g

def joinwTestAll (g : Group) : Group := (List.range 8).foldl joinwTest g

/-- JOIN Kn by the split of an entry (R93): the entry of the result. -/
def joinNow (g : Group) (entry k : Nat) (sp : Split) : Group × Nat :=
  let ms := g.live.filter (fun e => e.1 ≠ entry && e.2.idle && e.2.offset == sp.offset && e.2.handler == sp.handler &&
    (e.2.mask &&& g.kreg k) != 0)
  let o := ms.foldl (fun a e => if e.2.age < a.2.age then e else a) (entry, sp)
  let merged := ((entry, sp) :: ms).foldl (fun a e => a.absorb e.2) o.2
  let g := ms.foldl (fun g e => g.setSplit e.1 none) (g.setSplit entry none)
  ((g.setSplit o.1 (some { merged with fmt := merged.sfmt, st := .ready, joined := true, clause := none })).progress, o.1)

/-- JOINW Kn by the split of an entry: park, merge with those parked there, test (R93). -/
def joinwArrive (g : Group) (entry k : Nat) (sp : Split) (i : Instr) (now : Nat) : Group :=
  let p : Park := ⟨.joinw k, sp.mask, i, now, none, []⟩
  let ms := g.live.filter (fun e => e.1 ≠ entry && e.2.parkedAt k && e.2.offset == sp.offset && e.2.handler == sp.handler)
  let sp := { sp with st := .parked p, clause := none }
  let o := ms.foldl (fun a e => if e.2.age < a.2.age then e else a) (entry, sp)
  let merged := ((entry, sp) :: ms).foldl (fun a e => a.absorb e.2) o.2
  let g := ms.foldl (fun g e => g.setSplit e.1 none) (g.setSplit entry none)
  joinwTest (g.setSplit o.1 (some { merged with st := .parked { p with lanes := merged.mask } })) k

/-! ## Settling (R80 to R82) -/

def Split.joinwParked (sp : Split) : Bool :=
  match sp.st with
  | .parked p => (match p.kind with | .joinw _ => true | _ => false)
  | _ => false

def Split.kOf (sp : Split) : Nat :=
  match sp.st with
  | .parked p => (match p.kind with | .joinw k => k | _ => 0)
  | _ => 0

/-- R81: every live split is parked at a JOINW and an unparked record waits; the youngest is written
out. The answer names an entry whose record does not fit: it traps. -/
def writeOut (s : State) (gid : Nat) : State × Option (Nat × LaneFault) :=
  let g := s.getGroup gid
  if !g.live.isEmpty && g.live.all (fun e => e.2.joinwParked) && g.defs.any (fun d => d.parked.isNone) then
    match g.live.foldl (fun a e => match a with | none => some e | some b => if b.2.age < e.2.age then some e else a) (none : Option (Nat × Split)), g.freeDefs.head? with
    | some (e, sp), some k =>
      let d : DefRec := ⟨k, sp.mask, some sp.kOf, sp.handler, sp.age, sp.offset, sp.fmt, sp.sfmt, none, sp.maxgwct, sp.lastsend, sp.acqt, sp.seen⟩
      if !g.defFits k then (s, some (e, ⟨.spillFull, 0, 0⟩))
      else
        let (s, r) := writeRecords s (.unit (.split gid e)) gid [d]
        match r with
        | .inr es => (s.updGroup gid (fun g => { (g.setSplit e none) with defs := g.defs ++ [d], queue := g.queue ++ es, issues := g.issues + 1 }), none)
        | .inl (.fault f) => (s, some (e, f))
        | .inl _ => (s, none)
    | _, _ => (s, none)
  else (s, none)

/-- Merge, read back and write out until nothing changes. -/
def settle : Nat → State → Nat → State × Option (Nat × LaneFault)
  | 0, s, _ => (s, none)
  | n + 1, s, gid =>
    let s := s.updGroup gid (mergeAll 4)
    let s := readback 128 s gid
    let (s, t) := writeOut s gid
    match t with
    | some t => (s, some t)
    | none =>
      let g := s.getGroup gid
      if g.mergePair.isSome || ((List.range 4).any (fun e => (g.split? e).isNone) && g.defs.any (fun d => d.parked.isNone)) then
        settle n s gid
      else (s, none)

/-! ## Exit (R95, R108) -/

/-- A group whose last lane has exited leaves its pairs, fork set and bands (R251, R255, R237). -/
def leaveGroup (s : State) (gid : Nat) : State :=
  let g := s.getGroup gid
  if g.liveLanes ≠ 0 then s
  else
    let s := s.updBlock g.block (fun b => { b with pairs := b.pairs.map (fun e => (e.1,
      let p := if e.2.cmem == some g.gidx then { e.2 with cmem := none } else e.2
      if p.umem == some g.gidx then { p with umem := none } else p)) })
    let s := s.updGroup gid (fun g => { g with bands := List.replicate 8 none })
    let s := match s.forkOf gid with
      | none => s
      | some f => forkTest (s.updFork f.id (fun f => { f with group := false })) f.id
    retireTokens s g.ctx

/-- Lanes end: they leave every K register and count as exited; barriers, JOINWs and rendezvous are
tested again. Their split's mask is the caller's. -/
def exitLanes (s : State) (gid : Nat) (x : Mask) : State :=
  let s := s.updGroup gid (fun g =>
    joinwTestAll { g with exited := g.exited ||| x, kregs := (g.kregs.map (fun e => (e.1, e.2 &&& ~~~x))).filter (fun e => e.2 != 0) })
  let g := s.getGroup gid
  let s := barTestAll s g.block
  let s := match s.forkOf gid with
    | none => s
    | some f => (List.range 8).foldl (fun s n => rdvTest s f.id n) s
  leaveGroup s gid

end Sys2Proof.Machine
end

