-- ==== Sys2Proof/Machine/Ops.lean ====
section
/-! DEFINITION. Taking a trap (R22, R297 to R301), a double fault (R299), the return from a trap (R302,
R303), and the end of a slot, of a plane issue and of a clause (R30, R48, R87, R88, R149). -/

namespace Sys2Proof.Machine

/-! ## Cause codes and classes (R50, R17) -/

def Cause.code : Cause → Nat
  | .illegalOp => 0x01 | .reservedField => 0x02 | .latchOrder => 0x03 | .rights => 0x04
  | .misaligned => 0x05 | .fetchBound => 0x06 | .landing => 0x07 | .pageFault => 0x08
  | .handle => 0x09 | .bounds => 0x0A | .accUnalloc => 0x0B | .spillFull => 0x0C
  | .watchdog => 0x0D | .fpTrap => 0x0E | .pairBroken => 0x0F | .futureCancelled => 0x10
  | .tretContext => 0x11 | .statusReserved => 0x12 | .planeAbsent => 0x13 | .planeAlign => 0x14
  | .shape => 0x15 | .ecc => 0x16 | .uniformity => 0x17

/-- The fault class the operator is told (R17). -/
def classOf (code : Nat) : Nat :=
  if code = 0x08 then 1 else if code = 0x0C ∨ code = 0x0D then 2 else if code = 0x04 then 3
  else if code = 0x16 then 4 else if code = 0x18 then 5 else 0

/-- Every lane of a mask with one cause. -/
def trapAll (m : Mask) (c : Cause) (sub : Nat) : Trap := ⟨sub, (lanesOf m).map (fun l => (l, ⟨c, 0, 0⟩))⟩
def Trap.mask (t : Trap) : Mask := maskOf (t.lanes.map (fun x => x.1))
/-- The frame's cause: the lowest code present (R50). -/
def Trap.code (t : Trap) : Nat := t.lanes.foldl (fun a x => min a x.2.cause.code) 255
def Trap.laneOf? (t : Trap) (l : Nat) : Option LaneFault := (t.lanes.find? (fun x => x.1 == l)).map (fun x => x.2)

/-! ## Fetching (R76, R98, R184) -/

def fetchCode (s : State) (g : Group) (entry plane x : Nat) : State × (Tr ⊕ DWord) :=
  let (s, r) := readVirt s (.unit (.split g.gid entry)) g.core g.ctx (g.hdr.codeBase + plane * 2 ^ g.hdr.plshift + x) 8 .fetch
  match r with
  | .inl t => (s, .inl t)
  | .inr bs => (s.charge g.ctx 1 1, .inr (BitVec.ofNat 64 (natOfBytes bs)))

/-! ## The trap frame (R300, R301) -/

/-- The predicate field of a word as its major places it (R33, R36, R301). -/
def wordPred (w : DWord) : Option Prd :=
  let m := majorOf w
  if m = 0x15 ∨ m = 0x2E then none
  else if m = 0x60 ∨ m = 0x61 ∨ (0x73 ≤ m ∧ m ≤ 0x7B) ∨ m = 0x81 then some (Prd.ofBits (fld w 17 4))
  else if (0x90 ≤ m ∧ m ≤ 0x97) ∨ m = 0x99 then some (Prd.ofBits (fld w 48 4))
  else if (0x84 ≤ m ∧ m ≤ 0x87) ∨ m = 0x8E ∨ m = 0xA0 ∨ m = 0xA1 ∨ (0xB0 ≤ m ∧ m ≤ 0xBB) then none
  else if 0xD0 ≤ m ∧ m ≤ 0xD9 then none
  else some (Prd.ofBits (fld w 7 4))

def Group.predMask (g : Group) (p : Prd) : Mask :=
  let m := g.pred p.idx.toNat
  if p.neg then ~~~m else m

def Group.planesOf (g : Group) (m : Mask) : Nat :=
  (List.range 4).foldl (fun a k => if (lanesOf m).any (fun l => g.plane.get l 0 == k) then a + 2 ^ k else a) 0

def Split.stateCode (sp : Split) : Nat :=
  if sp.stopped then 5 else if sp.handler.isSome then 6
  else match sp.st with
    | .ready => 1
    | .mid => 2
    | .waiting => 3
    | .parked _ => 4

def splitEntryBytes (g : Group) (sp : Option Split) (own : Option Nat) : List Byte :=
  match sp with
  | none => List.replicate 32 0
  | some sp =>
    bytesOfNat 4 (BitVec.ofInt 32 sp.offset).toNat ++ bytesOfNat 1 (own.getD sp.stateCode) ++
      bytesOfNat 1 (g.planesOf sp.mask) ++ [0, 0] ++ bytesOfNat 16 sp.mask.toNat ++ List.replicate 8 0

/-- What a frame says besides the group's own state. -/
structure FrameInfo where
  trap : Trap
  hdr : Bool
  word : DWord
  hword : DWord
  own : Nat                  -- STATE of the trapping split's entry
  splitsv : Bool
  code : Nat

def laneRecord (g : Group) (sp : Split) (fi : FrameInfo) (done : Mask) (l : Nat) : List Byte :=
  if !sp.mask.getLsbD l then List.replicate 16 0
  else
    let f := fi.trap.laneOf? l
    let predok := !fi.hdr && (match wordPred fi.word with | none => true | some p => (g.predMask p).getLsbD l)
    let flags := (if done.getLsbD l then 1 else 0) + (if f.isSome then 2 else 0) + 4 * (g.plane.get l 0) + (if predok then 16 else 0)
    bytesOfNat 8 ((f.map (fun x => x.addr)).getD 0) ++ bytesOfNat 4 ((f.map (fun x => x.info)).getD 0) ++
      bytesOfNat 1 ((f.map (fun x => x.cause.code)).getD 0) ++ bytesOfNat 1 flags ++ bytesOfNat 2 (g.depth.get l 0)

def frameBytes (g : Group) (sp : Split) (entry : Nat) (c : Clause) (fi : FrameInfo) : List Byte :=
  let slot := if fi.hdr then 0 else c.slot
  let occ := (List.range 4).foldl (fun a k => if c.subs.getD k 0 ≠ 0 then a + 2 ^ k else a) 0
  let flags := (if fi.hdr then 1 else 0) + (if fi.splitsv then 2 else 0) + (if c.pend.isSome then 4 else 0) + slot * 256 +
    (hdrCount fi.hword) * 8192 + c.plane * 131072 + c.rem.toNat * 524288 + occ * 8388608 + (if c.lpass then 134217728 else 0)
  bytesOfNat 2 1 ++ bytesOfNat 1 fi.code ++ bytesOfNat 1 fi.trap.sub ++ bytesOfNat 4 flags ++
    bytesOfNat 4 (BitVec.ofInt 32 sp.offset).toNat ++ bytesOfWord c.fmt ++ bytesOfWord (c.pend.getD 0) ++ bytesOfWord sp.sfmt ++
    bytesOfNat 8 fi.word.toNat ++ bytesOfNat 8 fi.hword.toNat ++
    bytesOfNat 16 sp.mask.toNat ++ bytesOfNat 16 c.sub.toNat ++ bytesOfNat 16 fi.trap.mask.toNat ++
    bytesOfNat 8 sp.maxgwct ++ bytesOfNat 8 sp.lastsend ++ bytesOfNat 4 g.defsUsed ++ bytesOfNat 4 (min g.wdog 0xFFFFFFFF) ++
    (List.range 4).flatMap (fun e => splitEntryBytes g (g.split? e) (if e = entry then some fi.own else none)) ++
    bytesOfNat 16 (if c.lpass then c.remLanes.toNat else 0) ++ List.replicate 0x300 0 ++
    (List.range g.hdr.width).flatMap (laneRecord g sp fi c.done) ++ List.replicate (3072 - 16 * g.hdr.width) 0 ++
    (List.range 64).flatMap (fun r => (List.range g.hdr.width).flatMap (fun l =>
      bytesOfWord (if r / 4 < slot then c.latchOf (r / 4) (r % 4) l else 0)))

/-! ## Ends of groups -/

/-- Terminate a group at once: a double fault (R299). `cls` is 5, or 4 for a core reset (R338). -/
def doubleFault (s : State) (gid cls : Nat) : State :=
  let g := s.getGroup gid
  let live := g.liveLanes
  let s := s.updGroup gid (fun g => { g with splits := [none, none, none, none], defs := [], holder := none })
  let s := exitLanes s gid live
  let s := s.updCtx g.ctx (fun c => { c with dfault := true })
  let s := s.count g.ctx 0x000A 1
  let s := postOwner s g.ctx 0 ⟨g.ctx, 6, cls, 0, 0⟩
  postToOperator s g.ctx ⟨g.ctx, 6, cls, 0, 0⟩

/-! ## Taking a trap (R297) -/

/-- Whether the frame can be written now. -/
inductive FrameWay where
  | ready (pieces : List (Nat × Nat × Nat × List Byte))
  | double
  | stall
  deriving Inhabited

/-- Results still outstanding into the latches of the clause's issue delay the frame. -/
def Group.latchesDue (g : Group) (issue : Nat) : Bool :=
  g.loads.any (fun l => l.wb.issue == issue) ||
    g.queue.any (fun e => match e.wb with | some w => w.issue == issue | none => false)

def frameWay (s : State) (gid entry : Nat) (sp : Split) (bytes : List Byte) : State × FrameWay :=
  let g := s.getGroup gid
  if sp.handler.isSome || !((s.getCtx g.ctx).tvec.getLsbD 0) || (entry + 1) * g.fs > g.spillLim then (s, .double)
  else
    let va := g.frameAt entry
    let (s, r) := translatePieces (.unit (.split gid entry)) g.core g.ctx .write (cutSectors (g.fs / 64 + 2) va bytes) s
    match r with
    | .inr l => (s, .ready l)
    | .inl (.fault _) => (s, .double)
    | .inl _ => (s, .stall)

/-- The clause record of a split that traps at its header before any issue (R300): the occupied planes,
the first of them, the rest to run. -/
def headerClause (g : Group) (sp : Split) (h : DWord) : Clause :=
  let subs := if sp.handler.isSome then [sp.mask] else
    (List.range 4).map (fun k => maskOf ((lanesOf sp.mask).filter (fun l => g.plane.get l 0 == k)))
  let first := ((List.range 4).find? (fun k => subs.getD k 0 ≠ 0)).getD 0
  let rem := (List.range 4).foldl (fun a k => if k ≠ first ∧ subs.getD k 0 ≠ 0 then a + 2 ^ k else a) 0
  { hdr := h, off := sp.offset.toNat, handler := sp.handler.isSome, subs := subs, atHdr := true, rem := BitVec.ofNat 4 rem,
    plane := first, first := true, sub := subs.getD first 0, lpass := false, remLanes := 0, slot := 0, fmt := sp.fmt, pend := none,
    done := 0, sent := 0, latch := [], issue := g.issues, yielded := false, counted := false, xfer := none, xT := 0, xV := [] }

/-- What the group keeps of a clause that traps: the transfer recorded by the lanes of other issues. -/
def Clause.keep (c : Clause) (sp : Split) : Kept :=
  let later := (List.range 4).foldl (fun m k => if c.rem.getLsbD k then m ||| c.subs.getD k 0 else m) (c.sub ||| c.remLanes)
  { xfer := c.xfer, xT := c.xT &&& sp.mask &&& ~~~c.sub, xV := c.xV, issued := sp.mask &&& ~~~later, joined := sp.joined }

/-- The shared act of taking a trap. `commit` makes the effects of the lanes the cause does not name; it
runs only once the frame can be written, and `done` are those lanes. -/
def takeTrap (s : State) (gid entry : Nat) (hdr : Bool) (c : Clause) (word : DWord) (t : Trap) (wd : Bool)
    (commit : State → State) (done : Mask) : State :=
  let g := s.getGroup gid
  match g.split? entry with
  | none => s
  | some sp =>
    if g.latchesDue c.issue then s
    else
      let c := { c with done := c.done ||| done }
      let fi : FrameInfo :=
        { trap := t, hdr := hdr, word := word, hword := c.hdr, own := if wd then { sp with stopped := false }.stateCode else if hdr then 1 else 2,
          splitsv := wd, code := t.code }
      let (s, way) := frameWay s gid entry sp (frameBytes g sp entry c fi)
      match way with
      | .stall => s
      | .double => doubleFault s gid 5
      | .ready _ =>
        let s := commit s
        let g := s.getGroup gid
        -- the completing lanes' results are in the latches below the trapping slot only
        match (frameWay s gid entry sp (frameBytes g sp entry c fi)).2 with
        | .ready l =>
          let lane := ((lanesOf sp.mask).head?).getD 0
          let tv := (s.getCtx g.ctx).tvec
          let s := s.updGroup gid (fun g =>
            { (g.setSplit entry (some { sp with
                  offset := (tv.toNat / 8 * 8 : Nat), fmt := c.fmt, st := .ready, handler := some entry, joined := false, vect := some (classOf t.code),
                  stopped := false, clause := none })) with
              kept := g.kept.put entry (c.keep sp), queue := g.queue ++ pieceEntries lane g.issues l,
              issues := g.issues + 1, wdog := 0, wdFrame := if wd then some entry else g.wdFrame })
          if t.lanes.any (fun x => x.2.cause == .rights) then s.count g.ctx 0x000B 1 else s
        | _ => s

/-- A trap with no completing lanes. -/
def trapWhole (s : State) (gid entry : Nat) (hdr : Bool) (c : Clause) (word : DWord) (t : Trap) : State :=
  takeTrap s gid entry hdr c word t false id 0

/-- Whether a live split or a record still runs code of a frame. -/
def Group.frameLive (g : Group) (f : Nat) : Bool :=
  g.live.any (fun e => e.2.handler == some f) || g.defs.any (fun d => d.handler == some f)

/-- Splits stopped by a watchdog trap go on when its handler returns or ends (R97). -/
def Group.unstop (g : Group) : Group :=
  match g.wdFrame with
  | none => g
  | some f =>
    if g.frameLive f then g
    else { g with wdFrame := none, splits := g.splits.map (fun o => o.map (fun sp => { sp with stopped := false })) }

/-- Settle the split table; a parked split that cannot be written out traps SPILL_FULL (R81). -/
def settleAll (s : State) (gid : Nat) : State :=
  let (s, t) := settle 256 (s.updGroup gid Group.unstop) gid
  match t with
  | none => s
  | some (e, f) =>
    let g := s.getGroup gid
    match g.split? e with
    | none => s
    | some sp => trapWhole s gid e true (headerClause g sp 0) 0 ⟨0, (lanesOf sp.mask).map (fun l => (l, f))⟩

/-! ## The end of a clause (R87, R88) -/

def Clause.count (c : Clause) : Nat := hdrCount c.hdr
def Clause.next (c : Clause) : Int := (c.off + 8 * (c.count + 2) : Nat)

/-- Issue passes from the holder at a clause boundary when its hold has run out (R83, R109). -/
def State.setClause (s : State) (gid entry : Nat) (c : Clause) : State :=
  s.updGroup gid (fun g => match g.split? entry with
    | some sp => g.setSplit entry (some { sp with clause := some c, st := .mid })
    | none => g)

/-- The clause ends without moving lanes apart: the pending FMT takes effect, the split stands at `off`. -/
def Split.atEnd (sp : Split) (c : Clause) (off : Int) : Split :=
  { sp with fmt := c.pend.getD sp.fmt, offset := off, st := .ready, clause := none, joined := false }

/-- The split with the clause's pending FMT in force, before the transfer (R149). -/
def Split.withPend (sp : Split) (c : Clause) : Split := { sp with fmt := c.pend.getD sp.fmt }

def boundary (s : State) (gid : Nat) (c : Clause) : State :=
  settleAll (if c.yielded then s.updGroup gid (fun g => { g with pass := true }) else s) gid

/-- The lowest plane still to run. -/
def lowestPlane (m : BitVec 4) : Option Nat := (List.range 4).find? (fun k => m.getLsbD k)
def lowestLane (m : Mask) : Option Nat := (lanesOf m).head?

/-- After the last slot of an issue: the next lane pass or plane issue (R48, R87). None: the clause ends. -/
def Clause.nextIssue (c : Clause) (issue : Nat) : Option Clause :=
  let fresh := { c with slot := 0, done := 0, sent := 0, latch := [], issue := issue, counted := false, first := false }
  match (if c.lpass then lowestLane c.remLanes else none) with
  | some l => some { fresh with sub := BitVec.twoPow 128 l, remLanes := c.remLanes &&& ~~~BitVec.twoPow 128 l }
  | none =>
    match lowestPlane c.rem with
    | some k => some { fresh with plane := k, sub := c.subs.getD k 0, rem := c.rem &&& ~~~BitVec.twoPow 4 k, atHdr := true, lpass := false, remLanes := 0 }
    | none => none

/-! ## Returning from a trap (R302, R303) -/

/-- The fields of a frame that TRET uses, as they stand. -/
structure Frame where
  hdr : Bool
  pendv : Bool
  slot : Nat
  count : Nat
  plane : Nat
  rem : BitVec 4
  occ : Nat
  lpass : Bool
  offset : Nat
  fmt : Word
  pend : Word
  sfmt : Word
  hword : DWord
  mask : Mask
  sub : Mask
  remLanes : Mask
  planes : List Nat
  done : Mask
  latch : SMap Word

def Frame.ofBytes (width : Nat) (b : List Byte) : Frame :=
  let fl := leAt b 4 4
  { hdr := bitsOf fl 0 1 == 1, pendv := bitsOf fl 2 1 == 1, slot := bitsOf fl 8 5, count := bitsOf fl 13 4,
    plane := bitsOf fl 17 2, rem := BitVec.ofNat 4 (bitsOf fl 19 4), occ := bitsOf fl 23 4, lpass := bitsOf fl 27 1 == 1,
    offset := leAt b 8 4, fmt := BitVec.ofNat 32 (leAt b 12 4), pend := BitVec.ofNat 32 (leAt b 16 4),
    sfmt := BitVec.ofNat 32 (leAt b 20 4), hword := BitVec.ofNat 64 (leAt b 32 8), mask := BitVec.ofNat 128 (leAt b 40 16),
    sub := BitVec.ofNat 128 (leAt b 56 16), remLanes := BitVec.ofNat 128 (leAt b 240 16),
    planes := (List.range width).map (fun l => bitsOf (leAt b (0x400 + 16 * l + 13) 1) 2 2),
    done := maskOf ((List.range width).filter (fun l => leAt b (0x400 + 16 * l + 13) 1 % 2 == 1)),
    latch := (List.range 64).foldl (fun m r => (List.range width).foldl (fun m l =>
      m.set 0 (latchKey (r / 4) (r % 4) l) (BitVec.ofNat 32 (leAt b (0x1000 + r * 4 * width + 4 * l) 4))) m) [] }

/-- Read a frame as loads of the split (R322). -/
def readFrame (s : State) (gid entry slot : Nat) : State × (Tr ⊕ Frame) :=
  let g := s.getGroup gid
  let va := g.frameAt slot
  let (s, r) := translateAll (.unit (.split gid entry)) g.core g.ctx .read (chunks (g.fs / 64 + 2) va g.fs) s
  match r with
  | .inl t => (s, .inl t)
  | .inr l =>
    let q := g.queue
    (s, .inr (Frame.ofBytes g.hdr.width (l.foldr (fun e acc => readOwn s q g.issues e.1 e.2.1 ++ acc) [])))

/-- The clause a frame resumes at slot t on lanes L. None: the header is fetched again from the start. -/
def Frame.clause (f : Frame) (g : Group) (kept : Kept) (lanes : Mask) (t : Nat) : Option Clause :=
  let firstOcc := ((List.range 4).find? (fun k => bitsOf f.occ k 1 == 1)).getD f.plane
  if f.hdr ∧ f.plane ≤ firstOcc then none
  else
    let sub := f.sub &&& lanes
    let remL := if f.lpass then f.remLanes &&& lanes else 0
    let open' := lanes &&& ~~~(sub ||| remL ||| kept.issued)
    let subs := (List.range 4).map (fun k =>
      if k = f.plane then sub ||| remL
      else if f.rem.getLsbD k then maskOf ((lanesOf open').filter (fun l => f.planes.getD l 0 == k))
      else 0)
    let rem := (List.range 4).foldl (fun a k => if k ≠ f.plane ∧ subs.getD k 0 ≠ 0 then a + 2 ^ k else a) 0
    -- a transfer in a skipped slot is not taken, nor what its clause recorded before it
    let keep := t ≤ f.count
    some { hdr := f.hword, off := f.offset, handler := false, subs := subs, atHdr := f.hdr, rem := BitVec.ofNat 4 rem, plane := f.plane,
           first := f.occ % 2 ^ f.plane == 0, sub := sub, lpass := f.lpass, remLanes := remL, slot := t, fmt := f.fmt,
           pend := if f.pendv then some f.pend else none, done := if t = f.slot then f.done &&& sub else 0, sent := 0,
           latch := f.latch.filter (fun e => e.1 / 512 < t), issue := g.issues, yielded := false, counted := false,
           xfer := if keep then kept.xfer else none, xT := if keep then kept.xT &&& lanes else 0,
           xV := if keep then kept.xV else [] }

end Sys2Proof.Machine
end

