-- ==== Sys2Proof/Machine/Operands.lean ====
section
/-! DEFINITION. Every operand form: what a source field reads (R39 to R44), which operands an
instruction names and how wide they are (R39, R40), which classes admit it (R41, R47), which slot it
must stand in (R31, R64, R92), which authorities may issue it (R14), and where a result goes
(R33 to R35, R45). -/

namespace Sys2Proof.Machine

/-! ## The unit at a slot -/

/-- What a slot sees of the unit that issues it. -/
structure SlotCtx where
  u : UnitRef
  cls : Class
  ctx : Nat
  cluster : Nat
  core : Nat
  gid : Nat
  entry : Nat
  g : Group
  sp : Split
  p : Prog
  c : Clause
  mask : Mask                -- the active lanes of this issue
  act : Mask                 -- those that still have to do this slot (R302)
  ex : Mask                  -- those that execute it (R34)
  i : Instr
  park : Option Park

def SlotCtx.isProg (k : SlotCtx) : Bool :=
  match k.u with
  | .split _ _ => false
  | _ => true

def SlotCtx.lanes (k : SlotCtx) : List Nat := lanesOf k.ex
def SlotCtx.who (k : SlotCtx) : Agent := .unit k.u

/-! ## Constants (R43, R44) -/

/-- The floating constants, indices 80 to 125. -/
def floatConsts : List Nat :=
  [0x3F000000, 0xBF000000, 0x3F800000, 0xBF800000, 0x40000000, 0xC0000000, 0x40800000, 0xC0800000,
   0x3E800000, 0x3E000000, 0x3D800000, 0x40400000, 0x41000000, 0x41800000, 0x41200000, 0x3DCCCCCD,
   0x40490FDB, 0x3FC90FDB, 0x3F490FDB, 0x3EA2F983, 0x3F22F983, 0x40C90FDB, 0x402DF854] ++
  [0x3F317218, 0x3FB8AA3B, 0x40135D8E, 0x40549A78, 0x3FB504F3, 0x3F3504F3, 0x3F4C422A, 0x3D372713,
   0x3E2AAAAB, 0x80000000, 0x7F800000, 0xFF800000, 0x7FC00000, 0x7F7FFFFF, 0x00800000, 0x477FE000,
   0x7F7F0000, 0x3727C5AC, 0x358637BD, 0x3F400000, 0x3FC00000, 0x00000001, 0xFF7FFFFF]

/-- The integer of entries 0 to 79. -/
def constInt (i : Nat) : Int := (i : Int) - 16

/-- Word j of a constant read as an integer, raw bits or an address. -/
def constWord (i j : Nat) : Word :=
  if i < 80 then (if j = 0 then BitVec.ofInt 32 (constInt i) else if i < 16 then BitVec.allOnes 32 else 0)
  else if j = 0 then BitVec.ofNat 32 (floatConsts.getD (i - 80) 0) else 0

/-- A constant read as f32. -/
def constF32 (i : Nat) : Nat :=
  if i < 80 then (f32.ofInt (constInt i) 0).bits else floatConsts.getD (i - 80) 0

/-- A constant read as a half format. -/
def constHalf (t : FFmt) (i : Nat) : Nat :=
  if i < 80 then (t.ofInt (constInt i) 0).bits
  else (convert f32 t (floatConsts.getD (i - 80) 0) 0).bits

/-! ## Work-identifier fields (R58) -/

/-- Field f of a work identifier, cut by the header's widths. -/
def widField (widths : List Nat) (w : DWord) (f : Nat) : Nat :=
  bitsOf w.toNat ((widths.take f).foldl (· + ·) 0) (widths.getD f 0)

/-! ## Sources -/

/-- Special sources (R42). -/
def SlotCtx.special (k : SlotCtx) (s : State) (i l : Nat) : Word :=
  BitVec.ofNat 32 (
    if i = 0 then l
    else if i = 1 then k.g.plane.get l 0
    else if i ≤ 7 then widField k.g.hdr.widths (k.g.wid.get l 0) (i - 2)
    else if i = 8 then s.now
    else if i = 9 then s.now / 2 ^ 32
    else if i = 10 then bitsOf k.sp.mask.toNat (32 * (l / 32)) 32
    else if i = 11 then l / 32
    else if i = 12 then k.g.gslot
    else if i = 13 then k.core
    else if i = 14 then k.cluster
    else if i = 15 then dieOf k.cluster
    else k.g.hdr.width)

/-- A scalar: S of the group, M or E of a program. -/
def SlotCtx.sword (k : SlotCtx) (i : Nat) : Word := if k.isProg then k.p.regs.get i 0 else k.g.sregOf i

/-- Word j of the operand a source field names on lane l, raw. -/
def SlotCtx.word (k : SlotCtx) (s : State) (x : Src) (l j : Nat) : Word :=
  match x with
  | .v i => k.g.vreg (i.toNat + j) l
  | .latch i => if j < 4 then k.c.latchOf i.toNat j l else 0
  | .scalar i => k.sword (i.toNat + j)
  | .special i => if j = 0 then k.special s i.toNat l else 0
  | .const i => constWord i.toNat j

/-- A 32-bit operand. -/
def SlotCtx.rd (k : SlotCtx) (s : State) (x : Src) (l : Nat) : Word := k.word s x l 0
/-- An operand of n words as a list, lowest first. -/
def SlotCtx.rdWords (k : SlotCtx) (s : State) (x : Src) (l n : Nat) : List Word := (List.range n).map (k.word s x l)
/-- A 64-bit operand. -/
def SlotCtx.rd64 (k : SlotCtx) (s : State) (x : Src) (l : Nat) : Nat :=
  (k.word s x l 0).toNat + (k.word s x l 1).toNat * 2 ^ 32
/-- An f32 operand. -/
def SlotCtx.rdF32 (k : SlotCtx) (s : State) (x : Src) (l : Nat) : Nat :=
  match x with
  | .const i => constF32 i.toNat
  | x => (k.word s x l 0).toNat
/-- A packed half operand: low and high. -/
def SlotCtx.rdHalf2 (k : SlotCtx) (s : State) (t : FFmt) (x : Src) (l : Nat) : Nat × Nat :=
  match x with
  | .const i => (constHalf t i.toNat, constHalf t i.toNat)
  | x => let w := (k.word s x l 0).toNat; (w % 65536, w / 65536)
/-- A lone half operand in [15:0]. -/
def SlotCtx.rdHalf (k : SlotCtx) (s : State) (t : FFmt) (x : Src) (l : Nat) : Nat := (k.rdHalf2 s t x l).1

/-- The values of an operand over the executing lanes agree. -/
def SlotCtx.uniform (k : SlotCtx) (s : State) (x : Src) : Bool :=
  match k.lanes with
  | [] => true
  | l :: ls => ls.all (fun m => k.rd s x m == k.rd s x l)

/-- A predicate of the unit on its lanes. -/
def SlotCtx.predMask (k : SlotCtx) (p : Prd) : Mask :=
  if k.isProg then
    let b := if p.idx = 7 then true else k.p.preds.getLsbD p.idx.toNat
    if b != p.neg then BitVec.allOnes 128 else 0
  else k.g.predMask p

/-! ## Which operands an instruction names (R39, R40, R41) -/

/-- Sources with their widths in words, and a register destination with its width. -/
structure OpSpec where
  srcs : List (Src × Nat)
  dst : Option (Dst × Nat)
  deriving DecidableEq, Repr, Inhabited

def o1 (f : VForm) : OpSpec := ⟨[(f.a, 1)], some (f.dst, 1)⟩
def o2 (f : VForm) : OpSpec := ⟨[(f.a, 1), (f.b, 1)], some (f.dst, 1)⟩
def o3 (f : VForm) : OpSpec := ⟨[(f.a, 1), (f.b, 1), (f.c, 1)], some (f.dst, 1)⟩
def o0 (f : VForm) : OpSpec := ⟨[], some (f.dst, 1)⟩
def noOps : OpSpec := ⟨[], none⟩

def widthWords : Width3 → Nat
  | .w32 => 1
  | .w64 => 2
  | .w128 => 4
def ldbWords : LdbW → Nat
  | .w32 | .bcast => 1
  | .w64 => 2
  | .w128 => 4

/-- Words of a system register (R306). -/
def sysWords (r : Nat) : Nat :=
  if [0x04, 0x05, 0x07, 0x08, 0x0F, 0x12, 0x13, 0x14, 0x17, 0x18, 0x19, 0x1A, 0x1B, 0x1C, 0x1D].contains r then 2 else 1

/-- The token form names SRCB; an F number is no register operand (R226). -/
def futureOps (f : VForm) : OpSpec :=
  ⟨match f.a with | .latch _ => [(f.b, 1)] | _ => [], some (f.dst, 1)⟩

/-- An address of a scope: 64 bits from the cluster up, else a 32-bit store address (R187). -/
def addrWords (scope : BitVec 4) : Nat := if scope.toNat < 3 then 1 else 2

/-- The operands of an instruction, for a group of a width. -/
def operands (width : Nat) : Instr → OpSpec
  | .iadd _ f | .isub _ f | .imul f | .imulh _ f | .imin _ f | .imax _ f => o2 f
  | .imad _ f | .bfi f | .sel f => o3 f
  | .iabs f | .popc f | .clz f | .brev f | .mov f => o1 f
  | .and f | .or f | .xor f | .andn f | .shl f | .shr f | .sar f | .rol f | .bfe _ f => o2 f
  | .icmp _ f | .fcmp _ f => ⟨[(f.a, 1), (f.b, 1)], if f.dst.kind then none else some (f.dst, 1)⟩
  | .movi f => ⟨[], some (f.dst, 1)⟩
  | .plop f => ⟨[], if f.dst.kind then none else some (f.dst, 1)⟩
  | .dot4 _ f | .ffma f | .pkfma _ f | .lsum f => o3 f
  | .fadd f | .fsub f | .fmul f | .fmin f | .fmax f | .pkadd _ f | .pkmul _ f | .lmul f => o2 f
  | .frnd _ f | .fclass f | .frcp f | .frsq f | .fexp2 f | .flog2 f | .fsin f | .fcos f | .fmtget f => o1 f
  | .cvt m f =>
    match m with
    | .f32lns => o3 f
    | .lnsf32 | .f16x2 | .bf16x2 => o2 f
    | _ => o1 f
  | .fmtset f => ⟨[], some (f.dst, 1)⟩
  | .shfl _ f => o3 f
  | .vote .ballot f => ⟨[(f.a, 1)], some (f.dst, max 1 (width / 32))⟩
  | .vote _ f => ⟨[(f.a, 1)], if f.dst.kind then none else some (f.dst, 1)⟩
  | .redux _ f => o1 f
  | .ldb m f => ⟨[(f.addr, 1)], some (f.data, ldbWords m)⟩
  | .stb m f => ⟨[(f.addr, 1), (f.data, widthWords m)], none⟩
  | .spill f => ⟨[(f.b, 1), (f.c, 1)], none⟩
  | .fill f => ⟨[(f.a, 1), (f.b, 1)], none⟩
  | .hbind f | .hinv f => o1 f
  | .hinfo f => o2 f
  | .ldt f => ⟨[(f.addr, 1), (f.coord, 1)], some (f.data, 1)⟩
  | .stt f => ⟨[(f.addr, 1), (f.coord, 1), (f.data, 1)], none⟩
  | .ldg m f => ⟨[(f.addr, 2)], some (f.data, widthWords m)⟩
  | .stg m f => ⟨[(f.addr, 2), (f.data, widthWords m)], none⟩
  | .atom _ f => ⟨[(f.addr, addrWords f.scope), (f.coord, 1)], some (f.data, 1)⟩
  | .cas f => ⟨[(f.addr, addrWords f.scope), (f.coord, 2)], some (f.data, 1)⟩
  | .lr f => ⟨[(f.addr, 2)], some (f.data, 1)⟩
  | .sc f => ⟨[(f.addr, 2), (f.coord, 1)], some (f.data, 1)⟩
  | .pref f => ⟨[(f.addr, 2)], none⟩
  | .fence _ _ => noOps
  | .arm f => ⟨[(f.addr, 2)], some (f.data, 1)⟩
  | .waitm f => o1 f
  | .time f => ⟨[(f.a, 1)], some (f.dst, 2)⟩
  | .cpy f | .gath f | .scat f => ⟨(f.a, 1) :: (if f.flags.getLsbD 2 then [(f.b, 1)] else []), none⟩
  | .coll _ f => ⟨[(f.a, 1), (f.b, 1)], none⟩
  | .ftest f | .fwait f | .fcancel f => futureOps f
  | .awinit f | .await f | .awadd f => o2 f
  | .fork f => ⟨[(f.a, 2), (f.b, 2)], none⟩
  | .rdv f => ⟨[(f.a, 1)], none⟩
  | .br _ _ | .bra _ | .call _ | .ret _ | .kset _ | .join _ | .joinw _ => noOps
  | .jmpi f | .calli f | .plbr f => ⟨[(f.indir, 1)], none⟩
  | .plset f | .wdog f | .wid f | .sleep f => o1 f
  | .exit _ | .nop _ | .yield _ => noOps
  | .spawn .plain f => ⟨[(f.a, 2), (f.b, 2)], none⟩
  | .spawn .payload f => ⟨[(f.a, 2), (f.b, 2), (f.c, 4)], none⟩
  | .launch f | .launchNode f => ⟨[(f.a, 2), (f.b, 2)], none⟩
  | .barArrive f | .barSync f => ⟨[(f.a, 1), (f.b, 1)], none⟩
  | .barWait f => ⟨[(f.a, 1)], none⟩
  | .feedpop _ _ => noOps
  | .feedpush f => ⟨[(f.b, 1)], some (f.dst, 1)⟩
  | .pairBind f => o3 f
  | .pairUnbind f => o1 f
  | .shape f | .abgrant f => ⟨[(f.a, 1), (f.b, 1), (f.c, 1)], none⟩
  | .aballoc f | .abfree f | .aclr f => ⟨[(f.a, 1), (f.b, 1)], none⟩
  | .abgrantRevoke f => ⟨[(f.b, 1)], none⟩
  | .mma _ f | .mmap _ f => ⟨[(f.a, 1), (f.b, 1), (f.c, 1)], none⟩
  | .guide f => ⟨[(f.a, 1), (f.b, 1)], none⟩
  | .sfence _ => noOps
  | .ard f | .awr f => ⟨[(f.a, 1), (f.b, 1), (f.c, 1)], none⟩
  | .trbp f => ⟨[(f.a, 1), (f.b, 1)], none⟩
  | .trap f | .tret f => ⟨[(f.src, 1)], none⟩
  | .rdsr f => ⟨[(f.src, 1)], some (f.dst, sysWords f.sysid.toNat)⟩
  | .wrsr f => ⟨[(f.ctx, 1), (f.src, sysWords f.sysid.toNat)], none⟩
  | .cntrd f | .bktrd f => ⟨[(f.src, 1)], some (f.dst, 2)⟩
  | .place f | .placeRestore f | .evict f | .evictDiscard f | .keybind f | .gswitchSave f | .gswitchRestore f =>
    ⟨[(f.src, 2)], some (f.dst, 1)⟩
  | .evictDestroy f => ⟨[(f.src, 1)], some (f.dst, 1)⟩
  | .evictSeal f => ⟨[(f.src, 4)], some (f.dst, 1)⟩
  | _ => noOps

/-- The predicate field of an instruction, where its format has one (R34). -/
def instrPred (i : Instr) : Option Prd := wordPred (encode i)

/-! ## Classes (R41, R47), slots (R31, R64, R92), rights (R14) -/

/-- Majors and minors that a class admits (R47). -/
def admits (cls : Class) (m mn : Nat) : Bool :=
  match cls with
  | .vector =>
    m ≤ 0x17 || (0x20 ≤ m && m ≤ 0x31) || (0x50 ≤ m && m ≤ 0x52) || (0x60 ≤ m && m ≤ 0x63) ||
      (0x70 ≤ m && m ≤ 0x7B) || (0x80 ≤ m && m ≤ 0x9D) || (0xA0 ≤ m && m ≤ 0xA7) ||
      (0xB9 ≤ m && m ≤ 0xBB) || (0xD0 ≤ m && m ≤ 0xD3)
  | .system =>
    m ≤ 0x17 || (0x80 ≤ m && m ≤ 0x83) || (0x88 ≤ m && m ≤ 0x8A) || (0x90 ≤ m && m ≤ 0x97) ||
      (0x9A ≤ m && m ≤ 0x9D) || (0xD0 ≤ m && m ≤ 0xD9)
  | .matrix =>
    m ≤ 0x16 || m == 0x8F || (m == 0x90 && mn == 1) || m == 0x91 || m == 0x9A || (0xB0 ≤ m && m ≤ 0xB8)
  | .copy => m ≤ 0x16 || (0x84 ≤ m && m ≤ 0x86) || (0x8B ≤ m && m ≤ 0x8D) || m == 0x8F

/-- The destination field that an entry writes, in formats V and I. -/
def instrDst : Instr → Option Dst
  | .icmp _ f | .plop f => some f.dst
  | i => (operands 128 i).dst.map (fun x => x.1)

/-- In matrix and copy class: no V register, and the scalar form of the integer majors (R41, R47). -/
def unitForm (i : Instr) (m : Nat) : Bool :=
  (operands 128 i).srcs.all (fun x => !x.1.isV) &&
  match instrDst i with
  | none => true
  | some d => d.kind || (d.sup && 0x16 < m)

/-- Whether an instruction passes CLASS: its class admits it, and a handler holds no PLSET or PLBR. -/
def classOk (cls : Class) (handler : Bool) (i : Instr) : Bool :=
  let w := encode i
  let m := majorOf w
  admits cls m (minorOf w) && !(handler && (m == 0x98 || m == 0x99)) &&
    (match cls with | .matrix | .copy => unitForm i m | _ => true)

def isTransfer : Instr → Bool
  | .br _ _ | .bra _ | .jmpi _ | .call _ | .calli _ | .ret _ | .plbr _ | .exit _ => true
  | _ => false

/-- Instructions that park, and TRET, stand in the last slot (R64, R217, R232, R237, R302). -/
def lastOnly : Instr → Bool
  | .barWait _ | .barSync _ | .feedpop .blocking _ | .sleep _ | .waitm _ | .await _ | .rdv _ | .tret _ => true
  | i => isTransfer i

def slotOk (i : Instr) (slot count : Nat) : Bool :=
  match i with
  | .join _ | .joinw _ => slot == 0
  | i => !lastOnly i || slot == count

/-- Special indices a class admits (R42). -/
def specialOk (cls : Class) (i : Nat) : Bool :=
  match cls with
  | .vector | .system => i ≤ 16
  | .matrix | .copy => i == 8 || i == 9 || i == 14 || i == 15

/-- Reserved codes that depend on the class: special sources (R42) and scalars of a unit (R39). -/
def classFieldsOk (cls : Class) (i : Instr) : Bool :=
  (operands 128 i).srcs.all (fun x =>
    match x.1 with
    | .special j => specialOk cls j.toNat
    | .scalar j => (match cls with | .matrix | .copy => j.toNat < 32 | _ => true)
    | _ => true) &&
  (match cls with
   | .matrix | .copy =>
     (match (operands 128 i).dst with
      | some (d, _) => !d.kind || d.idx.toNat < 32
      | none => true)
   | _ => true) &&
  -- FORK's F fields and a copy's F field name registers of the group (R229, R236)
  (match cls, i with
   | .copy, .cpy f | .copy, .gath f | .copy, .scat f => f.bank == 0
   | _, _ => true)

/-- Rights rows by major (R14); authority 1 operator, 2 owner, 3 auditor. -/
def rightsOk (auth m : Nat) : Bool :=
  if (0x20 ≤ m ∧ m ≤ 0x31) ∨ (0x70 ≤ m ∧ m ≤ 0x74) ∨ (0x84 ≤ m ∧ m ≤ 0x8F) ∨ (0xA0 ≤ m ∧ m ≤ 0xA7) ∨
      (0xB0 ≤ m ∧ m ≤ 0xBB) ∨ m = 0xD8 then auth == 2
  else if m = 0xD4 ∨ m = 0xD5 ∨ m = 0xD9 then auth == 1
  else if m = 0xD6 then auth == 3
  else if m = 0xD7 then auth == 1 || auth == 2
  else true

/-- R46: a latch is read only after its slot. -/
def latchOk (i : Instr) (width slot : Nat) : Bool :=
  (operands width i).srcs.all (fun x => match x.1 with | .latch j => j.toNat < slot | _ => true)

/-- A source lies inside the allotment (R40); scalars end at S127 or at M31, E31. -/
def srcIn (vregs scalars : Nat) (x : Src × Nat) : Bool :=
  match x.1 with
  | .v j => j.toNat + x.2 ≤ vregs
  | .scalar j => j.toNat + x.2 ≤ scalars
  | _ => true

def dstIn (vregs scalars : Nat) (d : Dst) (n : Nat) : Bool :=
  d.sup || (if d.kind then d.idx.toNat + n ≤ scalars else d.idx.toNat + n ≤ vregs)

/-- R40 for every operand of an instruction. -/
def boundsOk (i : Instr) (width vregs scalars : Nat) : Bool :=
  let o := operands width i
  o.srcs.all (srcIn vregs scalars) &&
  (match o.dst with
   | some (d, n) => dstIn vregs scalars d n
   | none => true)

/-! ## Results still outstanding -/

/-- Whether an outstanding result is due in registers or latches that an operand names (DEDUCED: a slot
waits for them). -/
def dueIn (c : Clause) (m : Mask) (lane : Nat) (w : WriteBack) (x : Src × Nat) : Bool :=
  match x.1 with
  | .v j => m.getLsbD lane && !w.dst.sup && !w.dst.kind && w.dst.idx.toNat < j.toNat + x.2 && j.toNat < w.dst.idx.toNat + w.word + w.n
  | .scalar j => w.scalar && !w.dst.sup && w.dst.kind && w.dst.idx.toNat < j.toNat + x.2 && j.toNat < w.dst.idx.toNat + w.word + w.n
  | .latch j => w.issue == c.issue && w.slot == j.toNat
  | _ => false

def dstSrc (d : Dst) : Src := if d.kind then .scalar (d.idx.setWidth 7) else .v d.idx

/-- The outstanding write-backs of a group: lane and target. -/
def Group.writeBacks (g : Group) : List (Nat × WriteBack) :=
  g.loads.map (fun l => (l.lane, l.wb)) ++ g.queue.filterMap (fun e => e.wb.map (fun w => (e.lane, w)))

/-- Whether a slot must wait for an outstanding result. -/
def mustWait (k : SlotCtx) : Bool :=
  if k.isProg then
    -- a latch that MMAP or GUIDE fills when it completes (R258, R259)
    (operands 16 k.i).srcs.any (fun x => match x.1 with
      | .latch j => k.p.queue.any (fun o => o.lissue == k.c.issue && o.lslot == j.toNat && (match o.kind with | .mmap _ | .guide _ _ _ _ => true | _ => false))
      | _ => false)
  else
    let o := operands k.g.hdr.width k.i
    let xs := o.srcs ++ (match o.dst with | some (d, n) => if d.sup then [] else [(dstSrc d, n)] | none => [])
    let xs := match k.i with
      | .spill f => (f.a, 64) :: xs
      | .fill f => (dstSrc f.dst, 64) :: xs
      | .ard f | .awr f | .trbp f => (f.a, 64) :: xs
      | .cpy f | .gath f | .scat f | .coll _ f => (f.a, 16) :: xs
      | .feedpush f => (f.a, 16) :: xs
      | .feedpop _ f => (dstSrc f.dst, 17) :: xs
      | .ldt f => (f.coord, 8) :: xs
      | .stt f => (f.coord, 8) :: xs
      | _ => xs
    k.g.writeBacks.any (fun w => xs.any (dueIn k.c k.mask w.1 w.2))

/-! ## Writing results -/

def predDst : Instr → Bool
  | .icmp _ f | .plop f | .fcmp _ f => f.dst.kind
  | .vote .ballot _ => false
  | .vote _ f => f.dst.kind
  | _ => false

/-- Destination of an instruction that returns its result at the slot. -/
def resDst : Instr → Option Dst
  | .icmp _ f | .plop f | .fcmp _ f => some f.dst
  | .vote _ f => some f.dst
  | i => (operands 128 i).dst.map (fun x => x.1)

/-- Put the results of the executing lanes into latch k and the destination (R33 to R35, R45). `low` is
the lowest executing lane: a scalar takes its result, if it has one. -/
def putResults (g : Group) (i : Instr) (low : Option Nat) (r : List (Nat × List Word)) : Group :=
  match resDst i with
  | none => g
  | some d =>
    if d.sup then g
    else if predDst i then
      g.setPred d.idx.toNat (maskOf (r.map (fun x => x.1))) (maskOf ((r.filter (fun x => x.2.headD 0 != 0)).map (fun x => x.1)))
    else if d.kind then
      (match low.bind (fun l => r.find? (fun x => x.1 == l)) with
       | some x => g.writeWords true d.idx.toNat 0 x.2
       | none => g)
    else r.foldl (fun g x => g.writeWords false d.idx.toNat x.1 x.2) g

def putLatches (c : Clause) (slot : Nat) (r : List (Nat × List Word)) : Clause :=
  r.foldl (fun c x => c.setLatch slot x.1 0 x.2) c

/-- The same for a program's registers and predicates. -/
def putProg (p : Prog) (i : Instr) (r : List (Nat × List Word)) : Prog :=
  match resDst i, r.head? with
  | some d, some (_, ws) =>
    if d.sup then p
    else if predDst i then
      (if d.idx = 7 then p
       else { p with preds := if ws.headD 0 != 0 then p.preds ||| BitVec.twoPow 8 d.idx.toNat else p.preds &&& ~~~BitVec.twoPow 8 d.idx.toNat })
    else (List.range ws.length).foldl (fun p j => { p with regs := p.regs.set 0 (d.idx.toNat + j) (ws.getD j 0) }) p
  | _, _ => p

end Sys2Proof.Machine
end

