-- ==== Sys2Proof/Machine/Transfer.lean ====
section
/-! DEFINITION. What happens once, at the end of a clause, over the lanes of all its issues: the
transfers (R78, R88, R99 to R104), EXIT (R95, R108) and the return from a trap (R302, R303). -/

namespace Sys2Proof.Machine

/-- Outcome of a clause's end. -/
inductive EndOut where
  | ok (s : State)
  | trap (t : Trap) (s : State)      -- at the last slot, nothing committed
  | part (t : Trap) (s : State)      -- divided; the faulting part stands at the last slot
  | stall (s : State)
  | gone (s : State)                 -- the group has ended

/-- Lanes by target, targets ascending. -/
def byTarget (l : List (Nat × Int)) : List (Mask × Int) :=
  let ins (acc : List (Mask × Int)) (x : Nat × Int) : List (Mask × Int) :=
    let lt := acc.filter (fun e => e.2 < x.2)
    let eq := (acc.filter (fun e => e.2 == x.2)).foldl (fun m e => m ||| e.1) (BitVec.twoPow 128 x.1)
    lt ++ (eq, x.2) :: acc.filter (fun e => x.2 < e.2)
  l.foldl ins []

def restore (s : State) (gid entry : Nat) (sp : Split) : State := s.updGroup gid (fun g => g.setSplit entry (some sp))

/-- Divide, or move as a whole when only the keeping part has lanes; all or nothing. -/
def moveParts (s : State) (gid entry : Nat) (sp0 sp : Split) (parts : List (Mask × Int)) : EndOut :=
  match parts.filter (fun p => p.1 != 0) with
  | [] => .ok s
  | keep :: others =>
    match divide s gid entry sp keep others with
    | .ok s => .ok s
    | .trap f s => .trap ⟨0, (lanesOf sp0.mask).map (fun l => (l, f))⟩ (restore s gid entry sp0)
    | .stall s => .stall (restore s gid entry sp0)

/-- Taken and fall-through lanes (R78, R101): the fall-through part keeps the entry, or the taken one
with HINT = 01. -/
def branchParts (hint : BitVec 2) (rest taken : Mask × Int) : List (Mask × Int) :=
  if hint = 1 then [taken, rest] else [rest, taken]

/-- The lanes of a faulting part trap at the transfer's slot; the others move (R78, R99). -/
def moveFaulting (s : State) (gid entry : Nat) (sp0 sp : Split) (c : Clause) (fs : List (Nat × LaneFault))
    (parts : List (Mask × Int)) : EndOut :=
  if fs.isEmpty then moveParts s gid entry sp0 sp parts
  else
    let fm := maskOf (fs.map (fun x => x.1))
    let t : Trap := ⟨0, fs⟩
    let parts := parts.filter (fun p => p.1 != 0)
    if parts.isEmpty then .trap t s
    else
      match moveParts s gid entry sp0 sp ((fm, (c.off : Int)) :: parts) with
      | .ok s =>
        let c' := { c with sub := c.sub &&& fm, subs := c.subs.map (fun m => m &&& fm), remLanes := c.remLanes &&& fm, xT := c.xT &&& fm }
        .part t (s.updGroup gid (fun g => match g.split? entry with
          | some sp => g.setSplit entry (some { sp with fmt := sp0.fmt, st := .mid, clause := some c' })
          | none => g))
      | r => r

/-! ## Indirect targets (R99) -/

inductive TargetOut where
  | ok
  | fault (f : LaneFault)
  | stall

def checkTarget (s : State) (g : Group) (entry : Nat) (sp : Split) (l t : Nat) (landing : Bool) : State × TargetOut :=
  let plane := if sp.handler.isSome then 0 else g.plane.get l 0
  let va := g.hdr.codeBase + plane * 2 ^ g.hdr.plshift + t
  if t % 8 ≠ 0 then (s, .fault ⟨.misaligned, va, 0⟩)
  else if t ≥ g.hdr.codeSize then (s, .fault ⟨.fetchBound, 0, 0⟩)
  else
    let (s, r) := fetchCode s g entry plane t
    match r with
    | .inl (.fault f) => (s, .fault f)
    | .inl _ => (s, .stall)
    | .inr w => if hdrTag w = 15 && (!landing || hdrLanding w) then (s, .ok) else (s, .fault ⟨.landing, 0, 0⟩)

/-- Targets checked lane by lane: faults and the lanes that pass. None: a stage-2 stall. -/
def checkTargets (g : Group) (entry : Nat) (sp : Split) (landing : Bool) :
    List (Nat × Nat) → State → State × Option (List (Nat × LaneFault) × List (Nat × Nat))
  | [], s => (s, some ([], []))
  | (l, t) :: ts, s =>
    let (s, r) := checkTarget s g entry sp l t landing
    match r with
    | .stall => (s, none)
    | r =>
      let (s, rest) := checkTargets g entry sp landing ts s
      match rest, r with
      | none, _ => (s, none)
      | some (fs, os), .fault f => (s, some ((l, f) :: fs, os))
      | some (fs, os), _ => (s, some (fs, (l, t) :: os))

/-! ## Call levels (R102) -/

/-- Translate the level words of the calling lanes. -/
def callEntries (g : Group) (entry : Nat) (next : Nat) : List Nat → State → State × (Tr ⊕ List QEntry)
  | [], s => (s, .inr [])
  | l :: ls, s =>
    let va := g.levelAt (g.depth.get l 0) l
    let (s, r) := translate s (.unit (.split g.gid entry)) g.core g.ctx va .write
    match r with
    | .ok pa ip =>
      let (s, r) := callEntries g entry next ls s
      match r with
      | .inr es => (s, .inr (⟨l, g.issues, pa, va, ip, pieceData pa (bytesOfNat 4 next), .store, none⟩ :: es))
      | .inl t => (s, .inl t)
    | t => (s, .inl t)

/-- Return offsets: the level words of lanes at depth above 0; faults are the lane's own. -/
def readLevels (g : Group) (entry : Nat) (sp : Split) : List Nat → State → State × Option (List (Nat × LaneFault) × List (Nat × Nat))
  | [], s => (s, some ([], []))
  | l :: ls, s =>
    let d := g.depth.get l 0
    let va := g.levelAt (d - 1) l
    let (s, r) := if d = 0 then (s, Tr.fault ⟨.bounds, 0, 0⟩) else translate s (.unit (.split g.gid entry)) g.core g.ctx va .read
    match r with
    | .stall _ => (s, none)
    | r =>
      let (s, rest) := readLevels g entry sp ls s
      match rest, r with
      | none, _ => (s, none)
      | some (fs, os), .fault f => (s, some ((l, f) :: fs, os))
      | some (fs, os), .ok pa _ => (s, some (fs, (l, natOfBytes (readOwn s (g.queueOf sp.mask) g.issues pa 4)) :: os))
      | some (fs, os), .stall _ => (s, some (fs, os))

/-- Run a move, then write the call records and depths of the lanes that call. -/
def withCalls (s : State) (gid entry : Nat) (sp0 : Split) (c : Clause) (callers : List Nat) (move : State → EndOut) : EndOut :=
  let g := s.getGroup gid
  let all (f : LaneFault) : Trap := ⟨0, (lanesOf sp0.mask).map (fun l => (l, f))⟩
  if callers.any (fun l => g.depth.get l 0 ≥ 1023 || !g.levelFits (g.depth.get l 0)) then .trap (all ⟨.spillFull, 0, 0⟩) s
  else
    let (s, r) := callEntries g entry (c.off + 8 * (c.count + 2)) callers s
    match r with
    | .inl (.fault f) => .trap (all f) s
    | .inl _ => .stall s
    | .inr es =>
      let commit (s : State) : State := s.updGroup gid (fun g =>
        { g with queue := g.queue ++ es, issues := g.issues + 1,
                 depth := callers.foldl (fun d l => d.set 0 l (d.get l 0 + 1)) g.depth })
      match move s with
      | .ok s => .ok (commit s)
      | .part t s => .part t (commit s)
      | r => r

/-! ## The transfers (R101 to R104) -/

/-- Whole split to its next clause. -/
def fallThrough (s : State) (gid entry : Nat) (sp : Split) (c : Clause) : State :=
  restore s gid entry (sp.atEnd c c.next)

def branchEnd (s : State) (gid entry : Nat) (sp0 sp : Split) (c : Clause) (f : BForm) (T : Mask) : EndOut :=
  let d := (c.off : Int) + f.target.toInt
  moveParts s gid entry sp0 sp (branchParts f.hint (sp.mask &&& ~~~T, c.next) (T, d))

/-- The per-lane operand recorded for the lanes of T, ascending. -/
def recorded (c : Clause) (T : Mask) : List (Nat × Nat) := (lanesOf T).map (fun l => (l, (c.xV.get l 0).toNat))

/-- JMPI, CALLI and RET after their targets are known. -/
def indirectParts (sp : Split) (c : Clause) (T : Mask) (os : List (Nat × Nat)) : List (Mask × Int) :=
  byTarget (os.map (fun x => (x.1, (x.2 : Int))) ++ (lanesOf (sp.mask &&& ~~~T)).map (fun l => (l, c.next)))

def plbrFault (g : Group) (x : Nat × Nat) : Option LaneFault :=
  if x.2 > 3 then some ⟨.bounds, 0, 0⟩
  else if !g.hdr.planes.getLsbD x.2 then some ⟨.planeAbsent, 0, 0⟩ else none

/-- EXIT: the lanes X end (R108). -/
def exitEnd (s : State) (gid entry : Nat) (sp : Split) (c : Clause) (X : Mask) : State :=
  if X = 0 then fallThrough s gid entry sp c
  else
    let rest := sp.mask &&& ~~~X
    let s := s.updGroup gid (fun g =>
      if rest = 0 then (g.setSplit entry none).progress
      else g.setSplit entry (some ({ sp with mask := rest }.atEnd c c.next)))
    exitLanes s gid X

/-! ## TRET (R302, R303) -/

/-- Other splits of a frame that are parked at TRET. -/
def tretMates (g : Group) (entry f : Nat) : List (Nat × Split) :=
  g.live.filter (fun e => e.1 ≠ entry && e.2.handler == some f &&
    (match e.2.st with | .parked p => p.kind == .tret | _ => false))

/-- Whether every live lane of a mask is in this split or in a split of the frame parked at TRET. -/
def tretReady (g : Group) (entry f : Nat) (sp : Split) (m : Mask) : Bool :=
  let have' := (tretMates g entry f).foldl (fun a e => a ||| e.2.mask) sp.mask
  m &&& g.liveLanes &&& ~~~have' == 0

def maskWords (m : Mask) : List Word := (List.range 4).map (fun i => m.extractLsb' (32 * i) 32)
def wordsMask (ws : List Word) : Mask := BitVec.ofNat 128 (ws.foldr (fun w a => w.toNat + 2 ^ 32 * a) 0)

/-- The split that a frame resumes. -/
def resumed (g : Group) (kept : Kept) (sp : Split) (F : Frame) (L : Mask) (t : Nat) : Split :=
  let base : Split :=
    { sp with offset := F.offset, mask := L, fmt := F.fmt, sfmt := F.sfmt, st := .ready, handler := none, joined := F.hdr && kept.joined,
              vect := none, stopped := false, clause := none }
  match F.clause g kept L t with
  | none => base
  | some c =>
    if t ≤ F.count then { base with st := .mid, clause := some c }
    else match c.nextIssue g.issues with
      | some c => { base with st := .mid, clause := some c }
      | none => base.atEnd c c.next

def tretEnd (s : State) (gid entry : Nat) (sp : Split) (c : Clause) (i : Instr) : EndOut :=
  let g := s.getGroup gid
  match sp.handler with
  | none => .ok (fallThrough s gid entry sp c)
  | some f =>
    let sts := (lanesOf c.xT).map (fun l => c.xV.get l 0)
    let st := sts.headD 0
    let (s, r) := readFrame s gid entry f
    match r with
    | .inl (.fault x) => .trap ⟨0, (lanesOf sp.mask).map (fun l => (l, x))⟩ s
    | .inl _ => .stall s
    | .inr F =>
      let t := st.toNat
      if sts.any (fun x => x != st) || t ≥ 32 || t < F.slot || F.count + 1 < t || (F.hdr && t ≠ 0) then .gone (doubleFault s gid 5)
      else if !tretReady g entry f sp F.mask then
        .ok (restore s gid entry { sp with st := .parked ⟨.tret, sp.mask, i, s.now, none, maskWords F.mask⟩, clause := some c })
      else
        let mates := tretMates g entry f
        let all := mates.foldl (fun a e => a.absorb e.2) sp
        let L := F.mask &&& g.liveLanes &&& all.mask
        let X := all.mask &&& ~~~L
        let kept := g.kept.get f default
        let g1 := mates.foldl (fun g e => g.setSplit e.1 none) g
        let planes := (lanesOf L).foldl (fun m l => m.set 0 l (F.planes.getD l 0)) g.plane
        let g1 := { g1.bump with plane := planes }
        let res := resumed g1 kept all F L t
        if L = 0 then .ok (restore (s.updGroup gid (fun _ => g1)) gid entry ({ all with mask := X }.atEnd c c.next))
        else if X = 0 then .ok (restore (s.updGroup gid (fun _ => g1)) gid entry res)
        else
          let s1 := s.updGroup gid (fun _ => g1.setSplit entry (some ({ all with mask := X }.atEnd c c.next)))
          match placeParts s1 (.unit (.split gid entry)) gid { res with age := 0 } [⟨L, res.offset, res.clause, none, res.fmt, res.sfmt⟩] with
          | .ok s => .ok s
          | .trap x s => .trap ⟨0, (lanesOf sp.mask).map (fun l => (l, x))⟩ (s.updGroup gid (fun _ => g))
          | .stall s => .stall (s.updGroup gid (fun _ => g))

/-! ## The end of a clause -/

/-- What the clause's recorded transfer does. -/
def clauseEnd (s : State) (gid entry : Nat) (c : Clause) : EndOut :=
  let g := s.getGroup gid
  match g.split? entry with
  | none => .ok s
  | some sp0 =>
    let sp := sp0.withPend c
    let T := c.xT
    match c.xfer with
    | some (.br m f) =>
      if m == .uniform && T != 0 && T != sp.mask then .trap (trapAll sp.mask .uniformity 0) s
      else branchEnd s gid entry sp0 sp c f T
    | some (.bra f) => branchEnd s gid entry sp0 sp c f sp.mask
    | some (.call f) => withCalls s gid entry sp0 c (lanesOf T) (fun s => branchEnd s gid entry sp0 sp c f T)
    | some (.jmpi _) =>
      let (s, r) := checkTargets g entry sp true (recorded c T) s
      match r with
      | none => .stall s
      | some (fs, os) => moveFaulting s gid entry sp0 sp c fs (indirectParts sp c T os)
    | some (.calli _) =>
      let (s, r) := checkTargets g entry sp true (recorded c T) s
      match r with
      | none => .stall s
      | some (fs, os) =>
        withCalls s gid entry sp0 c (os.map (fun x => x.1)) (fun s => moveFaulting s gid entry sp0 sp c fs (indirectParts sp c T os))
    | some (.ret _) =>
      let (s, r) := readLevels g entry sp (lanesOf T) s
      match r with
      | none => .stall s
      | some (fs, ts) =>
        let (s, r) := checkTargets g entry sp false ts s
        match r with
        | none => .stall s
        | some (fs', os) =>
          let fs := fs ++ fs'
          let fs := (lanesOf T).filterMap (fun l => fs.find? (fun x => x.1 == l))
          let pop (s : State) : State := s.updGroup gid (fun g =>
            { g with depth := os.foldl (fun d x => d.set 0 x.1 (d.get x.1 0 - 1)) g.depth })
          match moveFaulting s gid entry sp0 sp c fs (indirectParts sp c T os) with
          | .ok s => .ok (pop s)
          | .part t s => .part t (pop s)
          | r => r
    | some (.plbr f) =>
      let vs := recorded c T
      let fs := vs.filterMap (fun x => (plbrFault g x).map (fun y => (x.1, y)))
      let good := vs.filter (fun x => (plbrFault g x).isNone)
      let d := (c.off : Int) + f.target.toInt
      let E := maskOf (good.map (fun x => x.1))
      let set (s : State) : State := s.updGroup gid (fun g => { g with plane := good.foldl (fun p x => p.set 0 x.1 x.2) g.plane })
      match moveFaulting s gid entry sp0 sp c fs (branchParts f.hint (sp.mask &&& ~~~T, c.next) (E, d)) with
      | .ok s => .ok (set s)
      | .part t s => .part t (set s)
      | r => r
    | some (.exit _) => .ok (exitEnd s gid entry sp c T)
    | some (.tret f) => tretEnd s gid entry sp0 c (.tret f)
    | _ => .ok (fallThrough s gid entry sp0 c)

end Sys2Proof.Machine
end

