-- ==== Sys2Proof/Machine/Progs.lean ====
section
/-! DEFINITION. Tokens and their observation (R209, R222 to R224), the end of a program of a matrix
sequencer or copy engine (R234, R242), the release of banks (R249) and the fetch of a program's code
(R289). -/

namespace Sys2Proof.Machine

/-! ## Tokens -/

def State.token? (s : State) (ctx cluster serial : Nat) : Option Token :=
  s.mx.tokens.find? (fun t => t.ctx == ctx && t.cluster == cluster && t.serial == serial)

def tokCluster (k : Word) : Nat := k.toNat / 2 ^ 24
def tokSerial (k : Word) : Nat := k.toNat % 2 ^ 24

/-- Status codes of R223. -/
def TStat.code : TStat → Nat
  | .pending => 1
  | .done => 2
  | .faulted => 3
  | .cancelled => 4

/-- The status of a token of a context (R223). -/
def tokenStatus (s : State) (ctx : Nat) (k : Word) : Nat :=
  if k = 0 then 0
  else match s.token? ctx (tokCluster k) (tokSerial k) with
    | some t => t.st.code
    | none => 5

/-- A split observes a completed token (R209, R224). -/
def observe (s : State) (ctx gid entry : Nat) (k : Word) : State :=
  let (a, b) := match s.token? ctx (tokCluster k) (tokSerial k) with
    | some t => (t.gwct, t.lastsend)
    | none => ((s.getCtx ctx).floorGwct, (s.getCtx ctx).floorSend)
  s.updGroup gid (fun g => match g.split? entry with
    | some sp => g.setSplit entry (some { sp with maxgwct := max sp.maxgwct a, lastsend := max sp.lastsend b })
    | none => g)

/-- Retire the oldest DONE entries of a context and cluster beyond 4,096 (R224). -/
def retireDone (s : State) (ctx cluster : Nat) : State :=
  let mine := s.mx.tokens.filter (fun t => t.ctx == ctx && t.cluster == cluster && t.st == .done)
  if mine.length ≤ 4096 then s
  else match mine.foldl (fun a t => match a with | none => some t | some b => if t.order < b.order then some t else a) (none : Option Token) with
    | none => s
    | some o =>
      let s := { s with mx := { s.mx with tokens := s.mx.tokens.filter (fun t => !(t.ctx == ctx && t.cluster == cluster && t.serial == o.serial)) } }
      s.updCtx ctx (fun c => { c with floorGwct := max c.floorGwct o.gwct, floorSend := max c.floorSend o.lastsend })

/-- An operation ends: its token takes its final status. -/
def endToken (s : State) (ctx cluster serial : Nat) (st : TStat) (cause addr gwct lastsend : Nat) : State :=
  let fin (t : Token) : Token :=
    if t.ctx == ctx && t.cluster == cluster && t.serial == serial && t.st == .pending then
      { t with st := st, cause := cause, addr := addr, gwct := max t.gwct gwct, lastsend := max t.lastsend lastsend, order := s.mx.ends }
    else t
  let s := { s with mx := { s.mx with ends := s.mx.ends + 1, tokens := s.mx.tokens.map fin } }
  retireTokens (retireDone s ctx cluster) ctx

/-- The next serial of a context on a cluster (R222). -/
def nextSerial (last : Nat) : Nat := if last ≥ 0xFFFFFF then 1 else last + 1

/-- Issue a token: pending. -/
def newToken (s : State) (ctx cluster : Nat) : State × Nat :=
  let n := nextSerial ((s.getCtx ctx).serials.get cluster 0)
  let s := s.updCtx ctx (fun c => { c with serials := c.serials.put cluster n })
  let old := s.mx.tokens.filter (fun t => !(t.ctx == ctx && t.cluster == cluster && t.serial == n))
  ({ s with mx := { s.mx with tokens := old ++ [⟨cluster, ctx, n, .pending, 0, 0, 0, 0, 0⟩] } }, n)

/-! ## Banks (R249, R251) -/

/-- Release banks of a context on a cluster: the slots that cover them are cleared. -/
def releaseBanks (s : State) (ctx cluster : Nat) (ns : List Nat) : State :=
  let s := { s with mx := { s.mx with banks := s.mx.banks.filter (fun b => !(b.ctx == ctx && b.cluster == cluster && ns.contains b.num)) } }
  let hit (d : Band) : Bool := ns.any (fun n => d.bank ≤ n && n < d.bank + d.n)
  let clear (g : Group) : Group :=
    if g.ctx == ctx && clusterOf g.core == cluster then
      { g with bands := g.bands.map (fun o => o.bind (fun d => if hit d then none else some d)) }
    else g
  { s with groups := s.groups.map clear }

/-- The context's banks go when it has no resident group there and no running program. -/
def reclaimBanks (s : State) (ctx cluster : Nat) : State :=
  if s.groups.any (fun g => g.ctx == ctx && clusterOf g.core == cluster && g.resident) ||
      s.mx.progs.any (fun p => p.ctx == ctx && p.cluster == cluster) then s
  else
    let mine := (s.mx.banks.filter (fun b => b.ctx == ctx && b.cluster == cluster && b.placed)).map (fun b => b.num)
    if mine.isEmpty then s else releaseBanks s ctx cluster mine

/-! ## Programs -/

/-- A unit leaves its fork set (R237). -/
def leaveFork (s : State) (cluster : Nat) (isSeq : Bool) (gid : Nat) : State :=
  match s.mx.forks.find? (fun f => f.gid == gid && f.cluster == cluster && (if isSeq then f.seq else f.eng)) with
  | none => s
  | some f =>
    let s := s.updFork f.id (fun f => if isSeq then { f with seq := false } else { f with eng := false })
    forkTest s f.id

/-- A program that no longer issues: its token completes and it goes when its work has ended. -/
def reapProg (s : State) (cluster : Nat) (isSeq : Bool) : State :=
  match s.prog? cluster isSeq with
  | none => s
  | some p =>
    if p.live || !p.queue.isEmpty || !p.ops.isEmpty then s
    else
      let s := if p.ending == .done then endToken s p.ctx p.tokCl p.serial .done 0 0 p.gwct p.lastsend else s
      let s := { s with mx := { s.mx with progs := s.mx.progs.filter (fun q => !(q.cluster == cluster && q.isSeq == isSeq)) } }
      reclaimBanks s p.ctx cluster

/-- A program stops issuing: by EXIT or its end, by a trap, or cancelled (R234, R242). -/
def stopProg (s : State) (cluster : Nat) (isSeq : Bool) (st : TStat) (cause addr : Nat) : State :=
  match s.prog? cluster isSeq with
  | none => s
  | some p =>
    let s := s.updProg cluster isSeq (fun p =>
      { p with live := false, park := none, clause := none, ending := st, cause := cause, causeAddr := addr,
               queue := if st == .done then p.queue else p.queue.filter (fun o => o.started) })
    let s := if st == .done then s else endToken s p.ctx p.tokCl p.serial st cause addr p.gwct p.lastsend
    let s := if st == .faulted then s.count p.ctx 0x0009 1 else s
    let s := leaveFork s cluster isSeq p.gid
    reapProg s cluster isSeq

/-- A trap in a program: the offset of the faulting word is recorded. -/
def progTrap (s : State) (cluster : Nat) (isSeq : Bool) (t : Trap) (addr : Nat) : State :=
  match s.prog? cluster isSeq with
  | none => s
  | some p =>
    let s := if t.lanes.any (fun x => x.2.cause == .rights) then s.count p.ctx 0x000B 1 else s
    stopProg s cluster isSeq .faulted t.code addr

/-- Core number under which an engine's accesses are made: it holds no cached translations. -/
def engCore (cluster : Nat) : Nat := 1000 + cluster

/-- A word of a program's code: from the code store, or beyond it through the context's translation. -/
def fetchProg (s : State) (p : Prog) (x : Nat) : State × (Tr ⊕ DWord) :=
  let u := if p.isSeq then UnitRef.seq p.cluster else UnitRef.eng p.cluster
  if x + 8 ≤ 32768 then
    match s.mx.stores.find? (fun c => c.cluster == p.cluster && c.isSeq == p.isSeq) with
    | some c => (s, .inr (BitVec.ofNat 64 (natOfBytes (c.code.getRun x 8 0))))
    | none => (s, .inr 0)
  else
    let (s, r) := readVirt s (.unit u) (engCore p.cluster) p.ctx (p.codeBase + x) 8 .fetch
    match r with
    | .inl t => (s, .inl t)
    | .inr bs => (s.charge p.ctx 1 1, .inr (BitVec.ofNat 64 (natOfBytes bs)))

end Sys2Proof.Machine
end

