-- ==== Sys2Proof/Machine/Scratch.lean ====
section
/-! DEFINITION. The scratchpad of a block in banked-store order (R113, R204), arrival words (R231), feeds
(R67, R68) and the waking of parked splits and programs. -/

namespace Sys2Proof.Machine

/-! ## Scratchpad bytes -/

def Block.size (b : Block) : Nat := b.hdr.scratch * 256

/-- A byte of the scratchpad; one that nothing has written is a free value. -/
def Block.byte (b : Block) (off : Nat) : Byte :=
  match b.data.get? off with
  | some (some x) => x
  | _ => Config.freeScratch b.seed off

def Block.bytes (b : Block) (off n : Nat) : List Byte := (List.range n).map (fun i => b.byte (off + i))
def Block.nat (b : Block) (off n : Nat) : Nat := natOfBytes (b.bytes off n)

def putScratch (m : SMap (Option Byte)) (off : Nat) : List Byte → SMap (Option Byte)
  | [] => m
  | x :: xs => putScratch (m.put off (some x)) (off + 1) xs

/-! ## Arrival words (R231) -/

structure Arrival where
  target : Nat
  count : Nat
  gen : Nat
  deriving DecidableEq, Repr, Inhabited

def Arrival.ofNat (x : Nat) : Arrival := ⟨bitsOf x 40 24, bitsOf x 16 24, bitsOf x 0 16⟩
def Arrival.toNat (a : Arrival) : Nat := a.target * 2 ^ 40 + a.count * 2 ^ 16 + a.gen

/-- Add b bytes: whole targets advance the generation. -/
def Arrival.add (a : Arrival) (b : Nat) : Arrival :=
  let c := a.count + b
  if a.target = 0 then { a with count := min c 0xFFFFFF }
  else { a with count := min (c % a.target) 0xFFFFFF, gen := (a.gen + c / a.target) % 65536 }

def Block.arrival (b : Block) (off : Nat) : Arrival := Arrival.ofNat (b.nat off 8)

/-- Wake a unit parked at AWAIT whose word has another generation (R233). -/
def wakeAwait (b : Block) (p : Park) : Park :=
  match p.kind, p.wake with
  | .await off gen, none =>
    let g := (b.arrival off).gen
    if g ≠ gen then { p with wake := some g } else p
  | _, _ => p

def mapPark (f : Park → Park) (sp : Split) : Split :=
  match sp.st with
  | .parked p => { sp with st := .parked (f p) }
  | _ => sp

/-- Change the park of every split of a group. -/
def Group.mapParks (g : Group) (f : Park → Park) : Group := { g with splits := g.splits.map (fun o => o.map (mapPark f)) }

/-- Waiters on a block's arrival words test them again. -/
def awaitTest (s : State) (blk : Nat) : State :=
  match s.block? blk with
  | none => s
  | some b =>
    let prog (p : Prog) : Prog := if p.block == blk then { p with park := p.park.map (wakeAwait b) } else p
    let grp (g : Group) : Group := if g.block == blk then g.mapParks (wakeAwait b) else g
    { s with groups := s.groups.map grp, mx := { s.mx with progs := s.mx.progs.map prog } }

/-- Write scratchpad bytes as one step of banked-store order. -/
def scratchWrite (s : State) (blk off : Nat) (bs : List Byte) : State :=
  awaitTest (s.updBlock blk (fun b => { b with data := putScratch b.data off bs })) blk

/-- Bytes have landed: the arrival word gains them (R230, R231). -/
def arrivalAdd (s : State) (blk off n : Nat) : State :=
  match s.block? blk with
  | none => s
  | some b => scratchWrite s blk off (bytesOfNat 8 ((b.arrival off).add n).toNat)

/-! ## Guided pairs (R255, R258) -/

/-- The group that holds a role: 0 conditional, 1 unconditional. -/
def PairSlot.mem (p : PairSlot) (r : Nat) : Option Nat := if r = 0 then p.cmem else p.umem

/-- A member is ready: present, and its feed word has another generation than the slot last consumed. -/
def pairReady (b : Block) (p : PairSlot) (r : Nat) : Bool :=
  (p.mem r).isSome && (b.arrival (if r = 0 then p.caw else p.uaw)).gen != (if r = 0 then p.cgen else p.ugen)

/-- Members of an MMAP that were present at its start and still are. -/
def ArrOp.members (o : ArrOp) (p : PairSlot) : List Nat := [0, 1].filter (fun r => o.pres.getLsbD r && (p.mem r).isSome)

/-- The MMAP waits for its second member. -/
def ArrOp.waits (o : ArrOp) (b : Block) : Bool :=
  match o.kind with
  | .mmap n =>
    let p := b.pairs.get n default
    let ms := o.members p
    o.started && !o.readAt && o.ran == 0 && ms.length == 2 && (ms.filter (pairReady b p)).length == 1
  | _ => false

/-- Cycles pass for the MMAPs that wait. -/
def tickPairs (s : State) (cyc : Nat) : State :=
  let prog (p : Prog) : Prog := match s.block? p.block with
    | some b => { p with queue := p.queue.map (fun o => if o.waits b then { o with waited := o.waited + cyc } else o) }
    | none => p
  { s with mx := { s.mx with progs := s.mx.progs.map prog } }

/-! ## Feeds (R67, R68) -/

def State.feed? (s : State) (ctx core : Nat) : Option Feed := s.feeds.find? (fun f => f.ctx == ctx && f.core == core)
def State.updFeed (s : State) (ctx core : Nat) (f : Feed → Feed) : State :=
  { s with feeds := updWhere (fun x => x.ctx == ctx && x.core == core) f s.feeds }

/-- Splits of a context on a core that wait in a blocking FEEDPOP and hold no record: stamp, group, entry. -/
def poppers (s : State) (ctx core : Nat) : List (Nat × Nat × Nat) :=
  (s.groups.filter (fun g => g.ctx == ctx && g.core == core && g.resident)).flatMap (fun g =>
    g.live.filterMap (fun e => match e.2.st with
      | .parked p => if p.kind == .feedpop && p.wake.isNone then some (p.stamp, g.gid, e.1) else none
      | _ => none))

def wakePark (s : State) (gid entry : Nat) (f : Park → Park) : State :=
  s.updGroup gid (fun g => match g.split? entry with
    | some sp => g.setSplit entry (some (mapPark f sp))
    | none => g)

/-- An append wakes a SLEEP with reason 1; with 0 where its time has come as well (R73). -/
def wakeSleep (now : Nat) (p : Park) : Park :=
  match p.kind, p.wake with
  | .sleep t, none => { p with wake := some (if t ≤ now then 0 else 1) }
  | _, _ => p

/-- Append one record to a feed that has room: the oldest parked pop takes it; sleepers wake (R68). -/
def feedAppend (s : State) (ctx core : Nat) (r : List Word) : State :=
  let grp (g : Group) : Group := if g.ctx == ctx && g.core == core && g.resident then g.mapParks (wakeSleep s.now) else g
  let s := { s with groups := s.groups.map grp }
  match (poppers s ctx core).foldl (fun a x => match a with | none => some x | some y => if x.1 < y.1 then some x else a) (none : Option (Nat × Nat × Nat)) with
  | some (_, gid, e) =>
    match s.feed? ctx core with
    | some f =>
      -- the head of the queue goes to the pop
      let q := f.recs ++ [r]
      let s := s.updFeed ctx core (fun f => { f with recs := q.tail })
      wakePark s gid e (fun p => { p with wake := some 1, data := q.headD r })
    | none => s
  | none => s.updFeed ctx core (fun f => { f with recs := f.recs ++ [r] })

/-! ## Whether a parked unit may go on -/

def lanePends (g : Group) (b : Barrier) (m : Mask) : Bool := (lanesOf (m &&& g.liveLanes)).any (barPending g b)

def anyFired (g : Group) (m : Mask) : Bool := (lanesOf m).any (fun l => g.monitors.get l .none == .fired)

def parkReady (s : State) (g : Group) (entry : Nat) (sp : Split) (p : Park) : Bool :=
  match p.kind with
  | .bar n => !lanePends g ((s.getBlock g.block).bars.get n default) p.lanes
  | .joinw _ => false
  | .feedpop => p.wake.isSome || (match s.feed? g.ctx g.core with | some f => !f.recs.isEmpty | none => true)
  | .sleep t => p.wake.isSome || t ≤ s.now
  | .waitm t => p.wake.isSome || anyFired g p.lanes || (match t with | some t => t ≤ s.now | none => false)
  | .await _ _ => p.wake.isSome
  | .rdv _ => p.wake.isSome
  | .tret => (match sp.handler with | some f => tretReady g entry f sp (wordsMask p.data) | none => true)

end Sys2Proof.Machine
end

