-- ==== Sys2Proof/Machine/Issue.lean ====
section
/-! DEFINITION. Issue: the header of a clause (R27 to R29, R51, R86, R92), one slot of a clause from its
checks to its results (R12, R30, R34, R45, R49, R51), which split and which group issue (R83, R278), the
watchdog (R96, R97), and the same for the programs of sequencers and copy engines. -/

namespace Sys2Proof.Machine

/-! ## Headers -/

def Cause.ofCode (n : Nat) : Cause :=
  match n with
  | 0x02 => .reservedField | 0x03 => .latchOrder | 0x04 => .rights | 0x05 => .misaligned | 0x06 => .fetchBound
  | 0x07 => .landing | 0x08 => .pageFault | 0x09 => .handle | 0x0A => .bounds | 0x0B => .accUnalloc
  | 0x0C => .spillFull | 0x0D => .watchdog | 0x0E => .fpTrap | 0x0F => .pairBroken | 0x10 => .futureCancelled
  | 0x11 => .tretContext | 0x12 => .statusReserved | 0x13 => .planeAbsent | 0x14 => .planeAlign | 0x15 => .shape
  | 0x16 => .ecc | 0x17 => .uniformity | _ => .illegalOp

/-- What the WAIT field finds (R29, R223): a cause, a pending future, or nothing to wait for. -/
inductive WaitOut where
  | go
  | pending
  | trap (f : LaneFault)
  deriving DecidableEq, Repr

def waitFields (h : DWord) : List Nat := (List.range 16).filter (fun n => (hdrWait h).getLsbD n)

def waitOut (s : State) (g : Group) (h : DWord) : WaitOut :=
  let fs := waitFields h
  let bad := fs.findSome? (fun n =>
    let k := g.freg n
    match tokenStatus s g.ctx k with
    | 3 => (s.token? g.ctx (tokCluster k) (tokSerial k)).map (fun t => (⟨Cause.ofCode t.cause, t.addr, 0⟩ : LaneFault))
    | 4 => some ⟨.futureCancelled, 0, 0⟩
    | _ => none)
  match bad with
  | some f => .trap f
  | none => if fs.any (fun n => tokenStatus s g.ctx (g.freg n) == 1) then .pending else .go

/-- Thresholds of R29 and the entry of a system-class clause (R48). -/
def loadsOk (g : Group) (m : Mask) (h : DWord) : Bool :=
  if hdrClass h = .system then (g.loadsOf m).isEmpty && (g.queueOf m).isEmpty
  else (hdrLdMax h = 15 || g.loadCount m ≤ hdrLdMax h) && (hdrStMax h = 15 || g.storeCount m ≤ hdrStMax h)

/-- Set STATE of a split. -/
def setState (s : State) (gid entry : Nat) (st : SState) : State :=
  s.updGroup gid (fun g => match g.split? entry with
    | some sp => g.setSplit entry (some { sp with st := st })
    | none => g)

def isCtl (m : Nat) : Bool := (0x90 ≤ m && m ≤ 0x9D) || (0xA0 ≤ m && m ≤ 0xA7) || m == 0xD0 || m == 0xD1

/-- R85 for one slot: control words are identical. -/
def slotAligned (a b : DWord) : Bool := if isCtl (majorOf a) || isCtl (majorOf b) then a == b else true
def hdrAligned (a b : DWord) : Bool :=
  hdrTag a == hdrTag b && hdrClass? a == hdrClass? b && hdrCount a == hdrCount b && hdrLanding a == hdrLanding b

/-- Fetch plane k's and plane 0's words of a list of offsets and compare them (R86). -/
def alignSlots (g : Group) (entry plane : Nat) : List Nat → State → State × (Tr ⊕ Bool)
  | [], s => (s, .inr true)
  | x :: xs, s =>
    let (s, a) := fetchCode s g entry 0 x
    match a with
    | .inl t => (s, .inl t)
    | .inr a =>
      let (s, b) := fetchCode s g entry plane x
      match b with
      | .inl t => (s, .inl t)
      | .inr b => if slotAligned a b then alignSlots g entry plane xs s else (s, .inr false)

def alignClause (s : State) (g : Group) (entry : Nat) (c : Clause) : State × (Tr ⊕ Bool) :=
  let (s, a) := fetchCode s g entry 0 c.off
  match a with
  | .inl t => (s, .inl t)
  | .inr h0 =>
    if !hdrAligned h0 c.hdr then (s, .inr false)
    else alignSlots g entry c.plane ((List.range (c.count + 1)).map (fun i => c.off + 8 * (i + 1))) s

/-- A trap at the header, on the whole split. -/
def hdrTrap (s : State) (gid entry : Nat) (c : Clause) (cause : Cause) (sub : Nat) : State :=
  match (s.getGroup gid).split? entry with
  | some sp => settleAll (trapWhole s gid entry true c c.hdr (trapAll sp.mask cause sub)) gid
  | none => s

def hdrFault (s : State) (gid entry : Nat) (c : Clause) (m : Mask) (f : LaneFault) : State :=
  settleAll (trapWhole s gid entry true c c.hdr ⟨0, (lanesOf m).map (fun l => (l, f))⟩) gid

/-- The clause of a split that starts on a header, lane passes included (R48, R87). -/
def startClause (g : Group) (sp : Split) (h : DWord) : Clause :=
  let c := headerClause g sp h
  if hdrClass h = .system then
    match lowestLane c.sub with
    | some l => { c with lpass := true, sub := BitVec.twoPow 128 l, remLanes := c.sub &&& ~~~BitVec.twoPow 128 l }
    | none => c
  else c

/-- The waits before slot 0 of an issue; then the issue begins. -/
def hdrWaits (s : State) (gid entry : Nat) (c : Clause) : State :=
  let g := s.getGroup gid
  match g.split? entry with
  | none => s
  | some sp =>
    let active := c.subs.getD c.plane c.sub
    let hold (s : State) : State := s.updGroup gid (fun g => g.setSplit entry (some { sp with st := .waiting, clause := some c }))
    match waitOut s g c.hdr with
    | .trap f => hdrFault s gid entry c active f
    | .pending => hold s
    | .go =>
      if !loadsOk g sp.mask c.hdr then hold s
      else
        let s := (waitFields c.hdr).foldl (fun s n => observe s g.ctx gid entry (g.freg n)) s
        let c := { c with atHdr := false }
        s.updGroup gid (fun g => match g.split? entry with
          | some sp => { (g.setSplit entry (some { sp with st := .mid, clause := some c, vect := none })) with issues := g.issues + 1 }
          | none => g)

/-- Checks 1 to 4 of R51 on a header at hand; none when it passes. -/
def hdrChecks (g : Group) (off : Nat) (h : DWord) : Option (Cause × Nat) :=
  if !hdrTagOk h then some (.illegalOp, 2)
  else if !hdrReservedOk h then some (.reservedField, 1)
  else if off + 8 * (hdrCount h + 2) > g.hdr.codeSize then some (.fetchBound, 0)
  else none

/-- The join of a join clause (R92, R93). None: no join is to be made. -/
def joinOf (w : DWord) (cls : Class) : Option (Bool × Nat × Instr) :=
  match parse w with
  | some (.join f) =>
    if (Instr.join f).wellFormed && classOk cls false (.join f) then some (false, f.kidx.toNat, .join f) else none
  | some (.joinw f) =>
    if (Instr.joinw f).wellFormed && classOk cls false (.joinw f) then some (true, f.kidx.toNat, .joinw f) else none
  | _ => none

/-- The notice and the count of a trap, made once its handler's header has passed (R297 step 4, R22). -/
def vectored (s : State) (gid entry : Nat) : Option Nat → State
  | none => s
  | some cls =>
    let g := s.getGroup gid
    let s := s.updGroup gid (fun g => match g.split? entry with
      | some sp => g.setSplit entry (some { sp with vect := none })
      | none => g)
    postToOperator (s.count g.ctx 0x0009 1) g.ctx ⟨g.ctx, 1, cls, 0, 0⟩

/-- A header that has been fetched: its checks, its join, its waits. -/
def hdrFetched (s : State) (gid entry : Nat) (sp : Split) (h : DWord) : State :=
  let g := s.getGroup gid
  let c := startClause g sp h
  match hdrChecks g c.off h with
  | some (cause, sub) => hdrTrap s gid entry { c with lpass := false } cause sub
  | none =>
    if sp.vect.isSome && !hdrLanding h then doubleFault s gid 5
    else
      let s := vectored s gid entry sp.vect
      let sp := { sp with vect := none }
      let (s, j) : State × (Tr ⊕ Option (Bool × Nat × Instr)) :=
        if sp.joined then (s, .inr none)
        else
          let (s, r) := fetchCode s g entry 0 (c.off + 8)
          match r with
          | .inl (.stall ip) => (s, .inl (.stall ip))
          | .inl _ => (s, .inr none)
          | .inr w => (s, .inr (joinOf w (hdrClass h)))
      match j with
      | .inl _ => setState s gid entry .waiting
      | .inr (some (wait, k, i)) =>
        if wait && g.kreg k != 0 then
          settleAll (s.updGroup gid (fun g => joinwArrive g entry k { sp with st := .ready } i s.now)) gid
        else settleAll (s.updGroup gid (fun g => (joinNow g entry k { sp with st := .ready }).1)) gid
      | .inr none =>
        let c := { c with handler := sp.handler.isSome }
        if c.plane ≠ 0 && !c.handler then
          let (s, r) := alignClause s g entry c
          match r with
          | .inl (.fault f) => hdrFault s gid entry c sp.mask f
          | .inl _ => setState s gid entry .waiting
          | .inr false => hdrTrap s gid entry c .planeAlign 0
          | .inr true => hdrWaits s gid entry c
        else hdrWaits s gid entry c

/-- CLAUSE_ISSUE of a split: at the start of a clause, or before a later plane issue of it. -/
def issueHeader (s : State) (gid entry : Nat) : State :=
  let g := s.getGroup gid
  match g.split? entry with
  | none => s
  | some sp =>
    match sp.clause with
    | some c =>
      if sp.st == .waiting && c.first && c.atHdr && c.hdr != 0 then
        -- still at the header it has passed: only its waits remain
        hdrWaits s gid entry c
      else
        -- a later plane issue: that plane's own header
        let (s, r) := fetchCode s g entry c.plane c.off
        match r with
        | .inl (.fault f) => hdrFault s gid entry c sp.mask f
        | .inl _ => setState s gid entry .waiting
        | .inr h =>
          let c := { c with hdr := h }
          match hdrChecks g c.off h with
          | some (cause, sub) => hdrTrap s gid entry c cause sub
          | none =>
            let (s, r) := alignClause s g entry c
            match r with
            | .inl (.fault f) => hdrFault s gid entry c sp.mask f
            | .inl _ => setState s gid entry .waiting
            | .inr false => hdrTrap s gid entry c .planeAlign 0
            | .inr true =>
              let c := if hdrClass h = .system then
                  match lowestLane c.sub with
                  | some l => { c with lpass := true, sub := BitVec.twoPow 128 l, remLanes := c.sub &&& ~~~BitVec.twoPow 128 l }
                  | none => c
                else c
              hdrWaits s gid entry c
    | none =>
      let c := headerClause g sp 0
      if sp.offset < 0 ∨ sp.offset % 8 ≠ 0 ∨ (g.hdr.codeSize : Int) ≤ sp.offset then hdrTrap s gid entry c .fetchBound 0
      else
        let plane := if sp.handler.isSome then 0 else c.plane
        let (s, r) := fetchCode s g entry plane sp.offset.toNat
        match r with
        | .inl (.fault f) => hdrFault s gid entry c sp.mask f
        | .inl _ => setState s gid entry .waiting
        | .inr h => hdrFetched s gid entry sp h

/-! ## The end of a slot -/

/-- Count the issue of a slot once (R295). -/
def markCounted (s : State) (gid entry : Nat) (ctx : Nat) (c : Clause) : State × Clause :=
  if c.counted then (s, c)
  else
    let c := { c with counted := true }
    ((s.count ctx 0x0000 1).updGroup gid (fun g => match g.split? entry with
      | some sp => g.setSplit entry (some { sp with clause := some c })
      | none => g), c)

def clauseNow (s : State) (gid entry : Nat) : Option Clause := ((s.getGroup gid).split? entry).bind (fun sp => sp.clause)

/-- The clause has run its last issue. -/
def endClause (s : State) (gid entry : Nat) (c : Clause) (word : DWord) : State :=
  match clauseEnd s gid entry c with
  | .ok s => boundary s gid c
  | .trap t s => settleAll (takeTrap s gid entry false c word t false id 0) gid
  | .part t s =>
    let c := (clauseNow s gid entry).getD c
    settleAll (takeTrap s gid entry false c word t false id 0) gid
  | .stall s => s.setClause gid entry c
  | .gone s => s

/-- Move past a slot: the next slot, the next issue, or the end of the clause. -/
def advance (s : State) (gid entry : Nat) (word : DWord) : State :=
  match clauseNow s gid entry with
  | none => s
  | some c =>
    if c.slot < c.count then
      s.setClause gid entry { c with slot := c.slot + 1, done := 0, sent := 0, counted := false }
    else
      let g := s.getGroup gid
      match c.nextIssue g.issues with
      | some c => (s.setClause gid entry c).updGroup gid Group.bump
      | none => endClause s gid entry c word

/-! ## One slot -/

/-- What an instruction does on the lanes that execute it. -/
inductive Out where
  | done (s : State) (r : List (Nat × List Word))             -- its results, lane by lane
  | trap (s : State) (r : List (Nat × List Word)) (t : Trap)  -- some lanes trap, the others complete
  | stall (s : State)                                         -- nothing yet: the slot is tried again
  | park (s : State) (kind : ParkKind)
  | xfer (s : State) (v : SMap Word)                          -- a transfer, recorded for the clause's end
  | gone (s : State)                                          -- the unit is no longer at the slot

/-- Every lane's trap: nothing completes. -/
def outTrap (s : State) (m : Mask) (c : Cause) : Out := .trap s [] (trapAll m c 0)
/-- The same result on every executing lane. -/
def outAll (k : SlotCtx) (s : State) (ws : List Word) : Out := .done s (k.lanes.map (fun l => (l, ws)))
def outNone (s : State) : Out := .done s []

/-- The slot context of a split. -/
def splitCtx (s : State) (gid entry : Nat) (i : Instr) : Option SlotCtx :=
  match s.group? gid with
  | none => none
  | some g =>
    match g.split? entry with
    | none => none
    | some sp =>
      match sp.clause with
      | none => none
      | some c =>
        if c.atHdr then none
        else
          let park := match sp.st with | .parked p => some p | _ => none
          let act := c.sub &&& ~~~c.done
          let ex := match park with
            | some p => p.lanes
            | none => act &&& (match instrPred i with | some p => g.predMask p | none => BitVec.allOnes 128)
          some { u := .split gid entry, cls := hdrClass c.hdr, ctx := g.ctx, cluster := clusterOf g.core, core := g.core, gid := gid,
                 entry := entry, g := g, sp := sp, p := default, c := c, mask := c.sub, act := act, ex := ex, i := i, park := park }

/-- The slot context of a program: one lane, lane 0. -/
def progCtx (s : State) (cluster : Nat) (isSeq : Bool) (i : Instr) : Option SlotCtx :=
  match s.prog? cluster isSeq with
  | none => none
  | some p =>
    match p.clause with
    | none => none
    | some c =>
      if c.atHdr || !p.live then none
      else
        let k : SlotCtx :=
          { u := if isSeq then .seq cluster else .eng cluster, cls := hdrClass c.hdr, ctx := p.ctx, cluster := cluster, core := engCore cluster,
            gid := p.gid, entry := 0, g := default, sp := default, p := p, c := c, mask := 1, act := 1, ex := 1, i := i, park := p.park }
        some { k with ex := match instrPred i with | some q => 1 &&& k.predMask q | none => 1 }

def slotCtx (s : State) (i : Instr) : Option SlotCtx :=
  match s.cur with
  | some (.split g e) => splitCtx s g e i
  | some (.seq c) => progCtx s c true i
  | some (.eng c) => progCtx s c false i
  | none => none

/-- The class a unit runs (R47). -/
def SlotCtx.classFits (k : SlotCtx) : Bool :=
  match k.u, k.cls with
  | .split _ _, .vector => true
  | .split _ _, .system => true
  | .seq _, .matrix => true
  | .eng _, .copy => true
  | _, _ => false

/-- The checks of R12 and R51 before an instruction's own causes: cause and sub-cause, whole split. -/
def slotChecks (k : SlotCtx) (auth : Nat) : Option (Cause × Nat) :=
  let i := k.i
  let width := k.g.hdr.width
  if !k.classFits || !classOk k.cls k.sp.handler.isSome i then some (.illegalOp, 1)
  else if !slotOk i k.c.slot k.c.count then some (.illegalOp, 4)
  else if !i.wellFormed || !classFieldsOk k.cls i then some (.reservedField, 0)
  else if !rightsOk auth (majorOf (encode i)) then some (.rights, 0)
  else if !latchOk i width k.c.slot then some (.latchOrder, 0)
  else if !boundsOk i width k.g.vregs (if k.isProg then 32 else 128) then some (.bounds, 0)
  else none

/-- Results into registers and latches, then past the slot. -/
def finish (s : State) (k : SlotCtx) (r : List (Nat × List Word)) : State :=
  let s := s.updGroup k.gid (fun g =>
    let g := putResults g k.i (lowestLane k.ex) r
    match g.split? k.entry with
    | some sp => g.setSplit k.entry (some { sp with st := .mid, clause := sp.clause.map (fun c => putLatches c c.slot r) })
    | none => g)
  advance s k.gid k.entry (encode k.i)

/-- Record a transfer on this issue's executing lanes (R88). -/
def recordXfer (s : State) (k : SlotCtx) (v : SMap Word) : State :=
  s.updGroup k.gid (fun g => match g.split? k.entry with
    | some sp => g.setSplit k.entry (some { sp with clause := sp.clause.map (fun c =>
        { c with xfer := some k.i, xT := c.xT ||| k.ex, xV := v.foldl (fun m e => m.set 0 e.1 e.2) c.xV }) })
    | none => g)

/-- One slot of a split. -/
def runSlot (k : SlotCtx) (eff : SlotCtx → State → Out) (s : State) : State :=
  let w := encode k.i
  match slotChecks k (s.getCtx k.ctx).auth with
  | some (cause, sub) =>
    let (s, c) := markCounted s k.gid k.entry k.ctx k.c
    settleAll (trapWhole s k.gid k.entry false c w (trapAll k.sp.mask cause sub)) k.gid
  | none =>
    if mustWait k then s
    else
      let (s, c) := markCounted s k.gid k.entry k.ctx k.c
      let g := s.getGroup k.gid
      let k := { k with c := c, g := g, sp := (g.split? k.entry).getD k.sp }
      match eff k s with
      | .done s r => finish s k r
      | .trap _ _ t =>
        let commit (s : State) : State :=
          match eff k s with
          | .trap s r _ => s.updGroup k.gid (fun g => putResults g k.i (lowestLane k.ex) r)
          | _ => s
        settleAll (takeTrap s k.gid k.entry false c w t false commit (k.mask &&& ~~~t.mask)) k.gid
      | .stall s => s
      | .park s kind =>
        let n := s.nextId
        settleAll (setState { s with nextId := n + 1 } k.gid k.entry (.parked ⟨kind, k.ex, k.i, n, none, []⟩)) k.gid
      | .xfer s v => advance (recordXfer s k v) k.gid k.entry w
      | .gone s => s

/-! ## Programs -/

def progAddr (c : Clause) : Nat := c.off + 8 * (c.slot + 1)

/-- Past a slot of a program; a clause's end is the next clause, a branch or EXIT (R31, R101, R108). -/
def progAdvance (s : State) (cluster : Nat) (isSeq : Bool) : State :=
  match s.prog? cluster isSeq with
  | none => s
  | some p =>
    match p.clause with
    | none => s
    | some c =>
      if c.slot < c.count then
        s.updProg cluster isSeq (fun p => { p with park := none, clause := some { c with slot := c.slot + 1, counted := false } })
      else
        let go (off : Int) : State := s.updProg cluster isSeq (fun p => { p with park := none, clause := none, off := off })
        match c.xfer with
        | some (.br _ f) => go (if c.xT = 0 then c.next else (c.off : Int) + f.target.toInt)
        | some (.bra f) => go ((c.off : Int) + f.target.toInt)
        | some (.exit _) => if c.xT = 0 then go c.next else stopProg s cluster isSeq .done 0 0
        | _ => go c.next

/-- One slot of a program. -/
def runProg (k : SlotCtx) (isSeq : Bool) (eff : SlotCtx → State → Out) (s : State) : State :=
  let auth := (s.getCtx k.ctx).auth
  let s := if k.c.counted then s else (s.count k.ctx 0x0001 1).updProg k.cluster isSeq (fun p => { p with clause := p.clause.map (fun c => { c with counted := true }) })
  match slotChecks k auth with
  | some (cause, sub) => progTrap s k.cluster isSeq (trapAll 1 cause sub) (progAddr k.c)
  | none =>
    if mustWait k then s
    else match eff k s with
    | .done s r =>
      progAdvance (s.updProg k.cluster isSeq (fun p => { (putProg p k.i r) with clause := p.clause.map (fun c => putLatches c c.slot r) })) k.cluster isSeq
    | .trap s _ t => progTrap s k.cluster isSeq t (progAddr k.c)
    | .stall s => s
    | .park s kind =>
      let n := s.nextId
      ({ s with nextId := n + 1 }).updProg k.cluster isSeq (fun p => { p with park := some ⟨kind, k.ex, k.i, n, none, []⟩ })
    | .xfer s _ =>
      progAdvance (s.updProg k.cluster isSeq (fun p => { p with clause := p.clause.map (fun c => { c with xfer := some k.i, xT := k.ex }) })) k.cluster isSeq
    | .gone s => s

/-- One slot of the unit that issues. -/
def runUnit (k : SlotCtx) (eff : SlotCtx → State → Out) (s : State) : State :=
  match k.u with
  | .split _ _ => runSlot k eff s
  | .seq _ => runProg k true eff s
  | .eng _ => runProg k false eff s

/-- The meaning of a slot instruction with an effect. -/
def slotStep (i : Instr) (eff : SlotCtx → State → Out) (s : State) : Host.Outcome State Fault Refusal :=
  match slotCtx s i with
  | none => .fault .noIssue
  | some k => .next (runUnit k eff s)

/-- The header of a program's clause. -/
def progHeader (s : State) (cluster : Nat) (isSeq : Bool) : State :=
  match s.prog? cluster isSeq with
  | none => s
  | some p =>
    let bad (cause : Cause) (sub : Nat) (s : State) : State := progTrap s cluster isSeq (trapAll 1 cause sub) p.off.toNat
    if !isSeq && p.off == (p.codeSize : Int) then stopProg s cluster isSeq .done 0 0
    else if p.off < 0 ∨ p.off % 8 ≠ 0 ∨ (p.codeSize : Int) ≤ p.off then bad .fetchBound 0 s
    else
      let (s, r) := fetchProg s p p.off.toNat
      match r with
      | .inl (.fault f) => progTrap s cluster isSeq ⟨0, [(0, f)]⟩ p.off.toNat
      | .inl _ => s
      | .inr h =>
        if !hdrTagOk h then bad .illegalOp 2 s
        else if !hdrReservedOk h then bad .reservedField 1 s
        else if p.off.toNat + 8 * (hdrCount h + 2) > p.codeSize then bad .fetchBound 0 s
        else
          let c : Clause :=
            { hdr := h, off := p.off.toNat, handler := false, subs := [1], atHdr := false, rem := 0, plane := 0, first := true, sub := 1,
              lpass := false, remLanes := 0, slot := 0, fmt := p.fmt, pend := none, done := 0, sent := 0, latch := [], issue := p.issues,
              yielded := false, counted := false, xfer := none, xT := 0, xV := [] }
          s.updProg cluster isSeq (fun p => { p with clause := some c, issues := p.issues + 1 })

/-- CLAUSE_ISSUE for the unit at a header. -/
def clauseIssueUnit (s : State) : State :=
  match s.cur with
  | some (.split g e) => issueHeader s g e
  | some (.seq c) => progHeader s c true
  | some (.eng c) => progHeader s c false
  | none => s

/-! ## The watchdog (R96, R97) -/

/-- The word a split stands at, for the frame of a WATCHDOG. -/
def wordAt (s : State) (g : Group) (entry : Nat) (c : Clause) : State × DWord :=
  let (s, r) := fetchCode s g entry (if c.handler then 0 else c.plane) (c.off + 8 * (c.slot + 1))
  match r with
  | .inr w => (s, w)
  | .inl _ => (s, 0)

/-- The group traps WATCHDOG: every split stops, the oldest takes the trap. -/
def watchdogTrap (s : State) (gid : Nat) : State :=
  let g := s.getGroup gid
  match g.live.foldl (fun a e => match a with | none => some e | some b => if e.2.age < b.2.age then some e else a) (none : Option (Nat × Split)) with
  | none => s
  | some (e, sp) =>
    let s := s.updGroup gid (fun g => { g with splits := (List.range 4).map (fun n => (g.split? n).map (fun x =>
      if n = e then x else match x.st with | .parked _ => x | _ => { x with stopped := true })) })
    let t := trapAll sp.mask .watchdog 0
    match sp.clause with
    | some c =>
      if c.atHdr then takeTrap s gid e true c c.hdr t true id 0
      else
        let (s, w) := wordAt s g e c
        -- a split parked at BAR.sync or RDV has arrived: its slot has been taken
        let past := match sp.st with
          | .parked p => (match p.instr with | .barSync _ | .rdv _ => true | _ => false)
          | _ => false
        takeTrap s gid e false (if past then { c with slot := c.count + 1, done := 0 } else c) w t true id 0
    | none =>
      let c := headerClause g sp 0
      let (s, r) := fetchCode s g e (if c.handler then 0 else c.plane) c.off
      let w := match r with | .inr w => w | .inl _ => 0
      takeTrap s gid e true { c with hdr := w } w t true id 0

/-- The count stands still for an evicted group, and while a split waits in FEEDPOP.0, in SLEEP or for a
system act (R96, R313). -/
def wdogHeld (s : State) (g : Group) : Bool :=
  !g.resident || g.halted || s.ctl.acts.any (fun a => a.gid == g.gid) || g.live.any (fun e => match e.2.st with
    | .parked p => (match p.kind with | .feedpop | .sleep _ => true | _ => false)
    | _ => false)

def wdogDue (s : State) (g : Group) : Bool :=
  let p := (s.getCtx g.ctx).wdog.toNat
  p ≠ 0 && p ≤ g.wdog && g.resident && !g.halted && !g.live.isEmpty

/-! ## Which split issues (R83) -/

def stalled (s : State) (u : UnitRef) : Bool := (stallStands s (.unit u)).isSome

/-- Whether a split could issue now. -/
def splitReady (s : State) (g : Group) (e : Nat) (sp : Split) : Bool :=
  !sp.stopped && !stalled s (.split g.gid e) &&
  match sp.st with
  | .ready => true
  | .mid => true
  | .waiting =>
    (match sp.clause with
     | some c => (match waitOut s g c.hdr with | .pending => false | .trap _ => true | .go => loadsOk g sp.mask c.hdr)
     | none => true)
  | .parked p => parkReady s g e sp p

/-- A split that stands inside a clause and has not parked keeps the group (R30). -/
def inClause (sp : Split) : Bool :=
  sp.st == .mid && !sp.stopped && (match sp.clause with | some c => !c.atHdr || !c.first | none => false)

def readySplits (s : State) (g : Group) : List (Nat × Split) := g.live.filter (fun e => splitReady s g e.1 e.2)

def oldestOf (l : List (Nat × Split)) : Option (Nat × Split) :=
  l.foldl (fun a e => match a with | none => some e | some b => if e.2.age < b.2.age then some e else a) none

/-- The next in age order after an age, wrapping. -/
def nextInAge (l : List (Nat × Split)) (age : Nat) : Option (Nat × Split) :=
  match oldestOf (l.filter (fun e => age < e.2.age)) with
  | some e => some e
  | none => oldestOf l

def fairLimit (s : State) (ctx : Nat) : Option Nat :=
  let f := (s.getCtx ctx).fair.toNat % 65536
  if f = 0 then none else some (max 64 f)

/-- The split of a group that issues next, and whether issue passes to it. -/
def chooseSplit (s : State) (g : Group) : Option (Nat × Bool) :=
  match g.live.find? (fun e => inClause e.2) with
  | some e => if splitReady s g e.1 e.2 then some (e.1, false) else none
  | none =>
    let rs := readySplits s g
    match g.holder.bind (fun h => rs.find? (fun e => e.1 == h)) with
    | none => (oldestOf rs).map (fun e => (e.1, true))
    | some h =>
      let late := match fairLimit s g.ctx with | some n => n ≤ g.held && 1 < rs.length | none => false
      if g.pass || late then (nextInAge rs h.2.age).map (fun e => (e.1, true)) else some (h.1, false)

/-- A quadrant's group: the ready group that issued least recently, ties to the lower number (R278). -/
def chooseGroup (s : State) (core quad : Nat) : Option (Group × Nat × Bool) :=
  let gs := s.groups.filter (fun g => g.core == core && g.quad == quad && g.resident && !g.halted && g.readyAt ≤ s.now)
  gs.foldl (fun a g =>
    match chooseSplit s g with
    | none => a
    | some (e, p) =>
      match a with
      | none => some (g, e, p)
      | some (b, _, _) => if g.lastIssue < b.lastIssue || (g.lastIssue == b.lastIssue && g.gslot < b.gslot) then some (g, e, p) else a) none

/-- What the unit that issues now does: the state, and the instruction for exec if it stands at one. -/
def splitNext (s : State) (gid entry : Nat) : State × Option Instr :=
  let g := s.getGroup gid
  match g.split? entry with
  | none => (s, none)
  | some sp =>
    match sp.st, sp.clause with
    | .parked p, _ => (s, some p.instr)
    | _, some c =>
      if c.atHdr then (s, some .clauseIssue)
      else
        let (s, r) := fetchCode s g entry (if c.handler then 0 else c.plane) (c.off + 8 * (c.slot + 1))
        match r with
        | .inl (.fault f) => (settleAll (trapWhole s gid entry false c 0 ⟨0, (lanesOf sp.mask).map (fun l => (l, f))⟩) gid, none)
        | .inl _ => (s, none)
        | .inr w =>
          let bad (sub : Nat) : State × Option Instr :=
            let (s, c) := markCounted s gid entry g.ctx c
            (settleAll (trapWhole s gid entry false c w (trapAll sp.mask .illegalOp sub)) gid, none)
          if 0xF0 ≤ majorOf w then bad 3
          else match parse w with
            | none => bad 0
            | some i => (s, some i)
    | _, none => (s, some .clauseIssue)

def progNext (s : State) (cluster : Nat) (isSeq : Bool) : State × Option Instr :=
  match s.prog? cluster isSeq with
  | none => (s, none)
  | some p =>
    if !p.live || p.stopped || stalled s (if isSeq then .seq cluster else .eng cluster) then (s, none)
    else match p.park, p.clause with
      | some q, _ => (s, if q.wake.isSome then some q.instr else none)
      | none, none => (s, some .clauseIssue)
      | none, some c =>
        let (s, r) := fetchProg s p (progAddr c)
        match r with
        | .inl (.fault f) => (progTrap s cluster isSeq ⟨0, [(0, f)]⟩ (progAddr c), none)
        | .inl _ => (s, none)
        | .inr w =>
          if 0xF0 ≤ majorOf w then (progTrap s cluster isSeq (trapAll 1 .illegalOp 3) (progAddr c), none)
          else match parse w with
            | none => (progTrap s cluster isSeq (trapAll 1 .illegalOp 0) (progAddr c), none)
            | some i => (s, some i)

/-- A quadrant's turn: a watchdog that is due, else the chosen split. -/
def quadNext (s : State) (core quad : Nat) : State × Option Instr :=
  match s.groups.find? (fun g => g.core == core && g.quad == quad && wdogDue s g) with
  | some g => ({ (settleAll (watchdogTrap s g.gid) g.gid) with cur := none }, none)
  | none =>
    match chooseGroup s core quad with
    | none =>
      let gs := s.groups.filter (fun g => g.core == core && g.quad == quad && g.resident && !g.halted)
      ({ (gs.foldl (fun s g => settleAll s g.gid) s) with cur := none }, none)
    | some (g, e, passed) =>
      let s := s.updGroup g.gid (fun g =>
        { g with lastIssue := s.cyc, holder := some e, held := if passed then 0 else g.held, pass := if passed then false else g.pass })
      splitNext { s with cur := some (.split g.gid e) } g.gid e

/-! ## Time -/

/-- The issue of a group leaves a split that has stopped being ready (R83). -/
def dropHolder (s : State) (g : Group) : Option Nat :=
  g.holder.filter (fun h => match g.split? h with
    | some sp => inClause sp || splitReady s g h sp
    | none => false)

/-- Time and cycles pass (R83, R96, R279). -/
def pass (s : State) (dt cyc : Nat) : State :=
  if dt = 0 ∧ cyc = 0 then s
  else
    let grp (g : Group) : Group :=
      let g := { g with holder := dropHolder s g }
      if wdogHeld s g then g
      else
        let other := (readySplits s g).any (fun e => g.holder != some e.1)
        { g with wdog := g.wdog + cyc, held := if other then g.held + cyc else g.held }
    let cores := distinct ((s.groups.filter (fun g => g.resident)).map (fun g => g.ctx * 512 + g.core))
    let s' := tickPairs { s with now := s.now + dt, cyc := s.cyc + cyc, groups := s.groups.map grp } cyc
    cores.foldl (fun s x => s.charge (x / 512) 0 cyc) s'

/-- Cores whose cached translations are dropped (R186). -/
def dropTlbs (s : State) (cores : List Nat) : State :=
  if cores.isEmpty then s else { s with vis := { s.vis with tlb := s.vis.tlb.filter (fun t => !cores.contains t.core) } }

/-! ## The unit that issued last -/

/-- Whether a program can take a step. -/
def progStands (s : State) (cluster : Nat) (isSeq : Bool) : Bool :=
  match s.prog? cluster isSeq with
  | none => false
  | some p => p.live && !p.stopped && !stalled s (if isSeq then .seq cluster else .eng cluster) &&
      (match p.park with | some q => q.wake.isSome | none => true)

/-- Whether a unit can take a step. -/
def unitStands (s : State) : UnitRef → Bool
  | .split gid e =>
    let g := s.getGroup gid
    (match g.split? e with
     | some sp => g.resident && !g.halted && splitReady s g e sp
     | none => false)
  | .seq c => progStands s c true
  | .eng c => progStands s c false

/-- What a unit that can take a step does. -/
def unitNext (s : State) : UnitRef → State × Option Instr
  | .split gid e => splitNext s gid e
  | .seq c => progNext s c true
  | .eng c => progNext s c false

end Sys2Proof.Machine
end

