-- ==== Sys2Proof/Machine/Flags.lean ====
section
/-! DEFINITION. The exception flags and FP_TRAP (R145, R146), FMT's fields (R147), and the shape of an
instruction that computes lane by lane. -/

namespace Sys2Proof.Machine

/-! ## CX.FPSTAT (R145) -/

def orFlags (s : State) (gid fl : Nat) : State :=
  s.updGroup gid (fun g => { g with fpstat := g.fpstat ||| BitVec.ofNat 32 fl })

/-- PCAP3 of CX.FPSTAT (R159). -/
def fPCAP3 : Nat := 256

/-! ## FMT (R147) -/

def fmtA (f : Word) : Nat := (f.extractLsb' 28 4).toNat
def fmtB (f : Word) : Nat := (f.extractLsb' 24 4).toNat
def fmtAScale (f : Word) : Int := (f.extractLsb' 16 8).toInt
def fmtBScale (f : Word) : Int := (f.extractLsb' 8 8).toInt
def fmtAccSat (f : Word) : Bool := f.getLsbD 7
def fmtRMode (f : Word) : BitVec 2 := f.extractLsb' 5 2
/-- Integer precision p = PM1 + 1. -/
def fmtPrec (f : Word) : Nat := (f.extractLsb' 2 3).toNat + 1
def fmtXTrap (f : Word) : Bool := f.getLsbD 1

/-! ## Lane by lane -/

/-- One word on every executing lane. -/
def laneWord (k : SlotCtx) (s : State) (f : Nat → Word) : Out := .done s (k.lanes.map (fun l => (l, [f l])))

/-- Flags of every lane's result. -/
def allFlags (rs : List (Nat × FRes)) : Nat := rs.foldl (fun a x => a ||| x.2.flags) 0

/-- A floating result on every executing lane: its flags are set; with XTRAP a lane that raises INV or
DZ traps and the others complete (R146). -/
def laneFloat (k : SlotCtx) (s : State) (f : Nat → FRes) : Out :=
  let rs := k.lanes.map (fun l => (l, f l))
  let s := orFlags s k.gid (allFlags rs)
  let bad := rs.filter (fun x => x.2.flags % 4 != 0)
  if fmtXTrap k.c.fmt && !bad.isEmpty then
    .trap s ((rs.filter (fun x => x.2.flags % 4 == 0)).map (fun x => (x.1, [BitVec.ofNat 32 x.2.bits])))
      ⟨0, bad.map (fun x => (x.1, ⟨.fpTrap, 0, x.2.flags % 4⟩))⟩
  else .done s (rs.map (fun x => (x.1, [BitVec.ofNat 32 x.2.bits])))

end Sys2Proof.Machine
end

