-- ==== Sys2Proof/Machine/Int.lean ====
section
/-! DEFINITION. Integer and logic instructions (R126 to R132, R169). In a program they run once, on the
unit's scalars (R132). -/

namespace Sys2Proof.Machine

/-! ## The results of R127 -/

/-- Clamp to the signed range of a word. -/
def clampS (x : Int) : Word := BitVec.ofInt 32 (max (-2147483648) (min x 2147483647))
/-- The least of a number and 2^32 - 1. -/
def clampZ (x : Nat) : Word := BitVec.ofNat 32 (min x 4294967295)

def iaddOf (m : SatMode) (a b : Word) : Word :=
  match m with
  | .wrap => a + b
  | .ssat => clampS (a.toInt + b.toInt)
  | .usat => clampZ (a.toNat + b.toNat)

def isubOf (m : SatMode) (a b : Word) : Word :=
  match m with
  | .wrap => a - b
  | .ssat => clampS (a.toInt - b.toInt)
  | .usat => BitVec.ofNat 32 (a.toNat - b.toNat)

def imulhOf (m : Sgn) (a b : Word) : Word :=
  match m with
  | .s => BitVec.ofInt 32 (a.toInt * b.toInt / 4294967296)
  | .z => BitVec.ofNat 32 (a.toNat * b.toNat / 4294967296)

def imadOf (m : MadMode) (a b c : Word) : Word :=
  match m with
  | .wrap => a * b + c
  | .ssat => clampS (a.toInt * b.toInt + c.toInt)

def lessOf (m : Sgn) (a b : Word) : Bool :=
  match m with
  | .s => a.toInt < b.toInt
  | .z => a.toNat < b.toNat

def iminOf (m : Sgn) (a b : Word) : Word := if lessOf m b a then b else a
def imaxOf (m : Sgn) (a b : Word) : Word := if lessOf m a b then b else a
def iabsOf (a : Word) : Word := if a.toInt < 0 then 0 - a else a
def shlOf (a b : Word) : Word := if b.toNat < 32 then a <<< b.toNat else 0
def shrOf (a b : Word) : Word := if b.toNat < 32 then a >>> b.toNat else 0
def sarOf (a b : Word) : Word := a.sshiftRight (min b.toNat 31)
def rolOf (a b : Word) : Word :=
  let n := b.toNat % 32
  (a <<< n) ||| (a >>> (32 - n))
def popcOf (a : Word) : Word := BitVec.ofNat 32 ((List.range 32).filter (fun i => a.getLsbD i)).length
def clzOf (a : Word) : Word := BitVec.ofNat 32 (if a = 0 then 32 else 31 - Nat.log2 a.toNat)
def brevOf (a : Word) : Word := (List.range 32).foldl (fun r i => if a.getLsbD (31 - i) then r ||| BitVec.twoPow 32 i else r) 0

/-! ## Fields (R128) -/

def fieldPos (b : Word) : Nat := b.toNat % 256
def fieldLen (b : Word) : Nat := min (b.toNat / 256 % 256) 32

def bfeOf (m : Ext) (a b : Word) : Word :=
  let pos := fieldPos b
  let len := fieldLen b
  let f := match m with
    | .z => if 32 ≤ pos then 0 else a.toNat / 2 ^ pos
    | .s => if 32 ≤ pos then (if a.toInt < 0 then 0xFFFFFFFF else 0) else a.toNat / 2 ^ pos
  let r := if len = 0 then 0 else f % 2 ^ len
  match m with
  | .z => BitVec.ofNat 32 r
  | .s => if 0 < len ∧ len < 32 ∧ r / 2 ^ (len - 1) % 2 = 1 then BitVec.ofNat 32 (r + (2 ^ 32 - 2 ^ len)) else BitVec.ofNat 32 r

def bfiOf (a b c : Word) : Word :=
  let pos := fieldPos b
  let len := fieldLen b
  if 32 ≤ pos ∨ len = 0 then c
  else
    let m : Word := BitVec.ofNat 32 ((2 ^ len - 1) * 2 ^ pos)
    (c &&& ~~~m) ||| ((a <<< pos) &&& m)

/-! ## Comparisons and predicates (R129, R131) -/

def icmpOf (m : ICond) (a b : Word) : Bool :=
  match m with
  | .eq => a == b
  | .ne => a != b
  | .lt => a.toInt < b.toInt
  | .le => a.toInt ≤ b.toInt
  | .gt => b.toInt < a.toInt
  | .ge => b.toInt ≤ a.toInt
  | .ltz => a.toNat < b.toNat
  | .lez => a.toNat ≤ b.toNat
  | .gtz => b.toNat < a.toNat
  | .gez => b.toNat ≤ a.toNat

def boolWord (b : Bool) : Word := if b then 1 else 0

/-- Selector j of a PLOP, and its table. -/
def plopSel (f : VForm) (j : Nat) : BitVec 3 := f.a.bits.extractLsb' (3 * j) 3
def plopTable (f : VForm) : BitVec 8 := f.b.bits.extractLsb' 0 8

def plopOf (t : BitVec 8) (x y z : Bool) : Bool := t.getLsbD ((if x then 4 else 0) + (if y then 2 else 0) + (if z then 1 else 0))

/-! ## DOT4 (R169) -/

/-- Byte j of a word. -/
def byteOf (a : Word) (j : Nat) : Byte := a.extractLsb' (8 * j) 8

def dot4Of (m : Sgn) (sat : Bool) (a b c : Word) : Word :=
  match m with
  | .s =>
    let t := (List.range 4).foldl (fun t j => t + (byteOf a j).toInt * (byteOf b j).toInt) c.toInt
    if sat then clampS t else BitVec.ofInt 32 t
  | .z =>
    let t := (List.range 4).foldl (fun t j => t + (byteOf a j).toNat * (byteOf b j).toNat) c.toNat
    if sat then clampZ t else BitVec.ofNat 32 t

/-! ## The meanings -/

def lane1 (f : VForm) (op : Word → Word) (k : SlotCtx) (s : State) : Out :=
  laneWord k s (fun l => op (k.rd s f.a l))
def lane2 (f : VForm) (op : Word → Word → Word) (k : SlotCtx) (s : State) : Out :=
  laneWord k s (fun l => op (k.rd s f.a l) (k.rd s f.b l))
def lane3 (f : VForm) (op : Word → Word → Word → Word) (k : SlotCtx) (s : State) : Out :=
  laneWord k s (fun l => op (k.rd s f.a l) (k.rd s f.b l) (k.rd s f.c l))

/-- IADD (R127). -/
def execIadd (m : SatMode) (f : VForm) (s : State) : Host.Outcome State Fault Refusal :=
  slotStep (.iadd m f) (lane2 f (iaddOf m)) s
/-- ISUB (R127). -/
def execIsub (m : SatMode) (f : VForm) (s : State) : Host.Outcome State Fault Refusal :=
  slotStep (.isub m f) (lane2 f (isubOf m)) s
/-- IMUL (R127). -/
def execImul (f : VForm) (s : State) : Host.Outcome State Fault Refusal :=
  slotStep (.imul f) (lane2 f (fun a b => a * b)) s
/-- IMULH (R127). -/
def execImulh (m : Sgn) (f : VForm) (s : State) : Host.Outcome State Fault Refusal :=
  slotStep (.imulh m f) (lane2 f (imulhOf m)) s
/-- IMAD (R127). -/
def execImad (m : MadMode) (f : VForm) (s : State) : Host.Outcome State Fault Refusal :=
  slotStep (.imad m f) (lane3 f (imadOf m)) s
/-- IMIN (R127). -/
def execImin (m : Sgn) (f : VForm) (s : State) : Host.Outcome State Fault Refusal :=
  slotStep (.imin m f) (lane2 f (iminOf m)) s
/-- IMAX (R127). -/
def execImax (m : Sgn) (f : VForm) (s : State) : Host.Outcome State Fault Refusal :=
  slotStep (.imax m f) (lane2 f (imaxOf m)) s
/-- IABS (R127). -/
def execIabs (f : VForm) (s : State) : Host.Outcome State Fault Refusal :=
  slotStep (.iabs f) (lane1 f iabsOf) s
/-- AND (R127). -/
def execAnd (f : VForm) (s : State) : Host.Outcome State Fault Refusal :=
  slotStep (.and f) (lane2 f (fun a b => a &&& b)) s
/-- OR (R127). -/
def execOr (f : VForm) (s : State) : Host.Outcome State Fault Refusal :=
  slotStep (.or f) (lane2 f (fun a b => a ||| b)) s
/-- XOR (R127). -/
def execXor (f : VForm) (s : State) : Host.Outcome State Fault Refusal :=
  slotStep (.xor f) (lane2 f (fun a b => a ^^^ b)) s
/-- ANDN (R127). -/
def execAndn (f : VForm) (s : State) : Host.Outcome State Fault Refusal :=
  slotStep (.andn f) (lane2 f (fun a b => a &&& ~~~b)) s
/-- SHL (R127). -/
def execShl (f : VForm) (s : State) : Host.Outcome State Fault Refusal :=
  slotStep (.shl f) (lane2 f shlOf) s
/-- SHR (R127). -/
def execShr (f : VForm) (s : State) : Host.Outcome State Fault Refusal :=
  slotStep (.shr f) (lane2 f shrOf) s
/-- SAR (R127). -/
def execSar (f : VForm) (s : State) : Host.Outcome State Fault Refusal :=
  slotStep (.sar f) (lane2 f sarOf) s
/-- ROL (R127). -/
def execRol (f : VForm) (s : State) : Host.Outcome State Fault Refusal :=
  slotStep (.rol f) (lane2 f rolOf) s
/-- POPC (R127). -/
def execPopc (f : VForm) (s : State) : Host.Outcome State Fault Refusal :=
  slotStep (.popc f) (lane1 f popcOf) s
/-- CLZ (R127). -/
def execClz (f : VForm) (s : State) : Host.Outcome State Fault Refusal :=
  slotStep (.clz f) (lane1 f clzOf) s
/-- BREV (R127). -/
def execBrev (f : VForm) (s : State) : Host.Outcome State Fault Refusal :=
  slotStep (.brev f) (lane1 f brevOf) s
/-- BFE (R128). -/
def execBfe (m : Ext) (f : VForm) (s : State) : Host.Outcome State Fault Refusal :=
  slotStep (.bfe m f) (lane2 f (bfeOf m)) s
/-- BFI (R128). -/
def execBfi (f : VForm) (s : State) : Host.Outcome State Fault Refusal :=
  slotStep (.bfi f) (lane3 f bfiOf) s
/-- ICMP (R129). -/
def execIcmp (m : ICond) (f : VForm) (s : State) : Host.Outcome State Fault Refusal :=
  slotStep (.icmp m f) (lane2 f (fun a b => boolWord (icmpOf m a b))) s
/-- SEL (R127). -/
def execSel (f : VForm) (s : State) : Host.Outcome State Fault Refusal :=
  slotStep (.sel f) (lane3 f (fun a b c => if c ≠ 0 then a else b)) s
/-- MOV (R127). -/
def execMov (f : VForm) (s : State) : Host.Outcome State Fault Refusal :=
  slotStep (.mov f) (lane1 f (fun a => a)) s
/-- MOVI (R130). -/
def execMovi (f : IForm) (s : State) : Host.Outcome State Fault Refusal :=
  slotStep (.movi f) (fun k s => laneWord k s (fun _ => f.imm)) s
/-- PLOP (R131). -/
def execPlop (f : VForm) (s : State) : Host.Outcome State Fault Refusal :=
  slotStep (.plop f) (fun k s =>
    let p (j l : Nat) : Bool := (k.predMask ⟨false, plopSel f j⟩).getLsbD l
    laneWord k s (fun l => boolWord (plopOf (plopTable f) (p 0 l) (p 1 l) (p 2 l)))) s
/-- DOT4 (R169). -/
def execDot4 (m : Sgn) (f : VForm) (s : State) : Host.Outcome State Fault Refusal :=
  slotStep (.dot4 m f) (lane3 f (dot4Of m f.sat)) s

end Sys2Proof.Machine
end

