-- ==== Sys2Proof/Machine/Vis.lean ====
section
/-! DEFINITION. The visibility machine (R197 to R210, R215): commits of store-queue entries, grants of
copies, loads that perform, monitors; FENCE, ARM, WAITM and TIME (R205, R216 to R218). -/

namespace Sys2Proof.Machine

/-! ## Results that arrive later (R29, R45) -/

/-- Put the words of an outstanding access into its register and its latch. -/
def deliver (s : State) (gid lane : Nat) (wb : WriteBack) (ws : List Word) : State :=
  s.updGroup gid (fun g =>
    let g := if wb.dst.sup then g
      else if wb.dst.kind then (if wb.scalar then g.writeWords true (wb.dst.idx.toNat + wb.word) lane ws else g)
      else g.writeWords false (wb.dst.idx.toNat + wb.word) lane ws
    let put (sp : Split) : Split :=
      { sp with clause := sp.clause.map (fun c => if c.issue == wb.issue then c.setLatch wb.slot lane wb.word ws else c) }
    { g with splits := g.splits.map (fun o => o.map put) })

/-- The times of the split or record that holds a lane. -/
def Group.addGwct (g : Group) (lane gw : Nat) : Group :=
  let sp (x : Split) : Split := if x.mask.getLsbD lane then { x with maxgwct := max x.maxgwct gw } else x
  let df (d : DefRec) : DefRec := if d.mask.getLsbD lane then { d with maxgwct := max d.maxgwct gw } else d
  { g with splits := g.splits.map (fun o => o.map sp), defs := g.defs.map df }

/-- The launch of a group remembers the largest GWCT of its stores (R57). -/
def noteGwct (s : State) (gid lane gw : Nat) : State :=
  let g := s.getGroup gid
  let s := s.updGroup gid (fun g => g.addGwct lane gw)
  { s with ctl := { s.ctl with launches := updWhere (fun x => x.id == g.launch) (fun x => { x with gwct := max x.gwct gw }) s.ctl.launches } }

/-- The log has no room, or cannot be reached: the region's bit in the bitmap, and OVF (R317). -/
def logOverflow (s : State) (op ctx ipage : Nat) : State :=
  let c := s.getCtx ctx
  let r := ipage / 512
  let (s, p) := reach op (bitsOf c.dmap.toNat 12 44 * 4096) .write s (r / 8)
  let s := match p with
    | some pa => devWrite s pa [s.rdByte pa ||| BitVec.ofNat 8 (2 ^ (r % 8))]
    | none => s
  s.updCtx ctx (fun c => { c with dmap := c.dmap ||| 1 })

/-- One entry of the dirty-page log (R317). -/
def logDirty (s : State) (ctx ipage : Nat) : State :=
  let c := s.getCtx ctx
  let (count, lim) := (c.dlogn.toNat / 2 ^ 32, c.dlogn.toNat % 2 ^ 32)
  match s.operatorOf c.part with
  | none => s
  | some op =>
    if !c.dlog.getLsbD 0 then s
    else if count = lim then logOverflow s op ctx ipage
    else
      let (s, p) := reach op (bitsOf c.dlog.toNat 12 44 * 4096) .write s (8 * count)
      match p with
      | none => logOverflow s op ctx ipage
      | some pa => (devWrite s pa (bytesOfNat 8 (ipage * 131072))).updCtx ctx (fun c => { c with dlogn := c.dlogn + 0x100000000 })

/-- Hardware sets the D bit of the stage-2 leaf of a page, and logs that (R183, R200, R317). -/
def setDirty (s : State) (ctx ipage : Nat) : State :=
  let (s, new) := markDirty s ctx ipage
  if new then logDirty s ctx ipage else s

/-! ## Atomic operations (R193) -/

def faddWord (a b : Word) : Word :=
  BitVec.ofNat 32 (f32.add (f32.unpack a.toNat) (f32.unpack b.toNat) 0).bits

def atomOf (op : AtomOp) (old v : Word) : Word :=
  match op with
  | .add => old + v
  | .min => iminOf .s old v
  | .max => imaxOf .s old v
  | .and => old &&& v
  | .or => old ||| v
  | .xor => old ^^^ v
  | .exch => v
  | .fadd => faddWord old v

/-! ## Commits (R200) -/

def sameSplit (g : Group) (lane : Nat) (l : Nat) : Bool := (g.mates lane).getLsbD l

/-- Two entries of one issue of an atomic, CAS or SC: its lanes are performed in ascending order (R193,
R195). -/
def sameIssue (a b : QEntry) : Bool :=
  match a.wb, b.wb with
  | some x, some y => x.issue == y.issue && x.slot == y.slot
  | _, _ => false

/-- Whether an entry may commit: no older entry of its split to its sector, no older load of its split
from it, no lower lane of its issue, and no engine owns it (R200, R203, R208). -/
def mayCommit (s : State) (g : Group) (idx : Nat) (e : QEntry) : Bool :=
  let sec := sectorOf e.pa
  !((g.queue.take idx).any (sameIssue e)) &&
  !((g.queue.take idx).any (fun x => sameSplit g e.lane x.lane && sectorOf x.pa == sec)) &&
    !(g.loads.any (fun l => sameSplit g e.lane l.lane && l.tag < e.tag && sectorOf l.pa == sec)) &&
    !s.vis.isOwned sec

/-- What an entry's commit writes, and the word it returns. -/
structure CommitVal where
  data : List (Nat × Byte)
  res : Word
  lost : Bool

def commitVal (s : State) (g : Group) (e : QEntry) : CommitVal :=
  let old := wordOfBytes (s.rdBytes e.pa 4)
  match e.kind with
  | .store => ⟨e.data, 0, false⟩
  | .atom op v => ⟨bytesAt e.pa (bytesOfWord (atomOf op old v)), old, false⟩
  | .cas cmp new => if old = cmp then ⟨bytesAt e.pa (bytesOfWord new), old, false⟩ else ⟨[], old, false⟩
  | .sc x =>
    match g.resv.get e.lane .none with
    | .held sec => if sec = sectorOf e.pa then ⟨bytesAt e.pa (bytesOfWord x), 1, false⟩ else ⟨[], 0, false⟩
    | .lost => ⟨[], 0, true⟩
    | _ => ⟨[], 0, false⟩

/-- An SC uses up its lane's reservation (R194). -/
def dropResv (s : State) (gid lane : Nat) (e : QEntry) : State :=
  match e.kind with
  | .sc _ =>
    let s := s.updGroup gid (fun g => { g with resv := g.resv.set .none lane .none })
    { s with vis := { s.vis with resvs := s.vis.resvs.filter (fun x => !(x.gid == gid && x.lane == lane)) } }
  | _ => s

/-- One entry commits at its home (R200). -/
def commitEntry (s : State) (gid idx : Nat) (e : QEntry) : State :=
  let g := s.getGroup gid
  let sec := sectorOf e.pa
  let v := commitVal s g e
  let gw := s.gwctOf sec
  let s := s.updGroup gid (fun g => { g with queue := g.queue.take idx ++ g.queue.drop (idx + 1) }.progress)
  let s := dropResv s gid e.lane e
  let s := if v.data.isEmpty then s else setDirty (homeCommit s (some (gid, e.lane)) (some (clusterOf g.core)) sec v.data) g.ctx e.ipage
  let s := noteGwct s gid e.lane gw
  let s := (s.count g.ctx 0x0002 (match e.kind with | .store => e.data.length | _ => 4)).charge g.ctx 1 1
  let s := if v.lost then s.count g.ctx 0x000E 1 else s
  match e.wb with
  | some wb => deliver s gid e.lane wb [v.res]
  | none => s

/-- Commit an entry if the visibility machine permits it, at a host home or at another. -/
def tryCommit (s : State) (gid idx : Nat) (host : Bool) : State :=
  match s.group? gid with
  | none => s
  | some g =>
    match g.queue[idx]? with
    | none => s
    | some e => if mayCommit s g idx e && (homeOf e.pa == 4) == host then commitEntry s gid idx e else s

/-! ## Copies (R201, R202) -/

/-- Lease length of a context (R198). -/
def leaseOf (c : Ctx) : Nat := max 64 (min 4096 (c.lease.toNat % 8192))

def grantCopy (s : State) (core ctx sector : Nat) : State :=
  let till := s.now + leaseOf (s.getCtx ctx)
  let c : Copy := ⟨core, sector, s.rdBytes (sector * 64) 64, till, s.now, s.vis.version sector⟩
  { s with vis := { s.vis with
      copies := s.vis.copies.filter (fun x => !(x.core == core && x.sector == sector)) ++ [c]
      leases := ⟨sector, till⟩ :: s.vis.leases } }

def mayGrant (s : State) (sector : Nat) : Bool := !s.vis.isOwned sector && homeOf (sector * 64) != 4

/-! ## Loads (R202, R203) -/

/-- Where a load's uncovered bytes come from. -/
inductive Source where
  | queue
  | copy (c : Copy)
  | home
  | held                      -- may not perform now
  deriving Inhabited

def PLoad.overlaps (a b : PLoad) : Bool := a.pa < b.pa + b.n && b.pa < a.pa + a.n

def loadSource (s : State) (g : Group) (idx : Nat) (l : PLoad) : Source :=
  let q := g.queueOf (g.mates l.lane)
  let sec := sectorOf l.pa
  let sp := (g.splitOfLane l.lane).map (fun e => e.2)
  let covered := (List.range l.n).all (fun i => (forward q l.tag (l.pa + i)).isSome)
  let atHome : Bool := match l.kind with | .lr | .arm => true | _ => false
  let earlier := (g.loads.take idx).any (fun x => sameSplit g l.lane x.lane && x.overlaps l)
  let older := q.any (fun e => e.tag < l.tag && sectorOf e.pa == sec)
  if earlier || blockedByAtomic q l.tag l.pa l.n then .held
  else if atHome then (if older || s.vis.isOwned sec then .held else .home)
  else if covered then .queue
  else
    let acq := (sp.map (fun x => x.acqt)).getD 0
    let seen := (sp.map (fun x => x.seen.get sec 0)).getD 0
    match s.vis.copies.find? (fun c => c.core == g.core && c.sector == sec) with
    | some c =>
      if l.scope ≤ 5 && s.now < c.leaseEnd && acq ≤ c.granted then (if seen ≤ c.version + 1 then .copy c else .held)
      else if s.vis.isOwned sec then .held else .home
    | none => if s.vis.isOwned sec then .held else .home

/-- Remember that the lane's split has read a version of a sector (R203). -/
def noteSeen (s : State) (gid lane sector v : Nat) : State :=
  s.updGroup gid (fun g => { g with splits := g.splits.map (fun o => o.map (fun sp =>
    if sp.mask.getLsbD lane then { sp with seen := sp.seen.set 0 sector (max (sp.seen.get sector 0) (v + 1)) } else sp)) })

/-- Insert into a table of the home: an earlier entry of the lane goes; a full table loses its oldest. -/
def tableAdd (l : List WatchEntry) (e : WatchEntry) (cap : Nat) : List WatchEntry × Option WatchEntry :=
  let l := l.filter (fun x => !(x.gid == e.gid && x.lane == e.lane))
  let mine := l.filter (fun x => x.table == e.table)
  if mine.length < cap then (l ++ [e], none)
  else
    let old := mine.head?
    (l.filter (fun x => some x != old) ++ [e], old)

/-- ARM (R215). -/
def armMonitor (s : State) (gid lane sector : Nat) : State :=
  let (l, old) := tableAdd s.vis.mons ⟨homeOf (sector * 64), gid, lane, sector⟩ 8192
  let s := match old with
    | some e => s.updGroup e.gid (fun g => { g with monitors := g.monitors.set .none e.lane .fired })
    | none => s
  ({ s with vis := { s.vis with mons := l } }).updGroup gid (fun g => { g with monitors := g.monitors.set .none lane (.armed sector) })

/-- LR (R194). -/
def reserve (s : State) (gid lane sector : Nat) : State :=
  let (l, old) := tableAdd s.vis.resvs ⟨homeOf (sector * 64), gid, lane, sector⟩ 4096
  let s := match old with
    | some e => s.updGroup e.gid (fun g => { g with resv := g.resv.set .none e.lane .lost })
    | none => s
  ({ s with vis := { s.vis with resvs := l } }).updGroup gid (fun g => { g with resv := g.resv.set .none lane (.held sector) })

/-- An element of `es` bytes as a word (R175). -/
def extendElem (es : Nat) (signed : Bool) (x : Nat) : Word :=
  if signed && x / 2 ^ (8 * es - 1) % 2 == 1 then BitVec.ofNat 32 (x + (2 ^ 32 - 2 ^ (8 * es))) else BitVec.ofNat 32 x

def loadWords (l : PLoad) (bs : List Byte) : List Word :=
  match l.kind with
  | .elem es sg => [extendElem es sg (natOfBytes bs)]
  | _ => wordsOfBytes (l.n / 4) bs

/-- The load at an index performs with the bytes of its source. -/
def performLoad (s : State) (gid idx : Nat) (l : PLoad) (src : Source) (grant : Bool) : State :=
  let g := s.getGroup gid
  let q := g.queueOf (g.mates l.lane)
  let sec := sectorOf l.pa
  let base (i : Nat) : Byte := match src with
    | .copy c => c.val.getD ((l.pa + i) % 64) 0
    | _ => s.rdByte (l.pa + i)
  let bs := (List.range l.n).map (fun i => (forward q l.tag (l.pa + i)).getD (base i))
  let s := s.updGroup gid (fun g => { g with loads := g.loads.take idx ++ g.loads.drop (idx + 1) })
  let s := match src with
    | .home =>
      let s := (noteSeen s gid l.lane sec (s.vis.version sec)).count g.ctx 0x0002 l.n
      let s := s.charge g.ctx 1 1
      if grant && mayGrant s sec then grantCopy s g.core g.ctx sec else s
    | .copy c => noteSeen s gid l.lane sec c.version
    | _ => s
  let s := match l.kind with
    | .lr => reserve s gid l.lane sec
    | .arm => armMonitor s gid l.lane sec
    | _ => s
  deliver s gid l.lane l.wb (loadWords l bs)

/-! ## Accesses to memory -/

/-- The per-lane address of formats M with a 64-bit address: operand plus signed offset (R192). -/
def memAddr (k : SlotCtx) (s : State) (a : Src) (offs : BitVec 12) (l : Nat) : Nat :=
  ((((k.rd64 s a l : Nat) : Int) + offs.toInt) % 18446744073709551616).toNat

/-- BOUNDS and MISALIGNED of an address access (R187, R192). -/
def addrFault (n e : Nat) : Option LaneFault :=
  if 2 ^ 56 ≤ e then some ⟨.bounds, e, 0⟩ else if e % n ≠ 0 then some ⟨.misaligned, e, 0⟩ else none

/-- One lane's access after translation. -/
structure Acc where
  lane : Nat
  va : Nat
  pa : Nat
  ipage : Nat
  deriving Inhabited

/-- Check and translate lane by lane. None: a stage-2 stall. -/
def translateLanes (k : SlotCtx) (acc : Access) (n : Nat) :
    List (Nat × Nat) → State → State × Option (List (Nat × LaneFault) × List Acc)
  | [], s => (s, some ([], []))
  | (l, e) :: ls, s =>
    match addrFault n e with
    | some f =>
      let (s, r) := translateLanes k acc n ls s
      (s, r.map (fun x => ((l, f) :: x.1, x.2)))
    | none =>
      let (s, t) := translate s k.who k.core k.ctx e acc
      match t with
      | .stall _ => (s, none)
      | .fault f =>
        let (s, r) := translateLanes k acc n ls s
        (s, r.map (fun x => ((l, f) :: x.1, x.2)))
      | .ok pa ip =>
        let (s, r) := translateLanes k acc n ls s
        (s, r.map (fun x => (x.1, ⟨l, e, pa, ip⟩ :: x.2)))

/-- Complete the lanes without a fault, or trap the others (R6). -/
def outFaults (s : State) (r : List (Nat × List Word)) (fs : List (Nat × LaneFault)) : Out :=
  if fs.isEmpty then .done s r else .trap s r ⟨0, fs⟩

/-- Where a lane's result of this slot goes. -/
def SlotCtx.wb (k : SlotCtx) (d : Dst) (lane n : Nat) : WriteBack :=
  ⟨d, d.kind && lowestLane k.ex == some lane, k.c.issue, k.c.slot, 0, n⟩

/-- Append outstanding loads of one issue. -/
def addLoads (s : State) (gid : Nat) (ls : List PLoad) : State :=
  s.updGroup gid (fun g => { g with loads := g.loads ++ ls, issues := g.issues + 1 })

def addEntries (s : State) (gid : Nat) (es : List QEntry) : State :=
  s.updGroup gid (fun g => { g with queue := g.queue ++ es, issues := g.issues + 1 })

/-- The split has room for one more load, or store (R29). -/
def loadRoom (k : SlotCtx) : Bool := k.g.loadCount k.sp.mask < 15
def storeRoom (k : SlotCtx) : Bool := k.g.storeCount k.sp.mask < 15

/-! ## FENCE (R205) -/

/-- The window number of device time (R211). -/
def windowOf (t : Nat) : Nat := t / 1024

/-- Scope of a FENCE, in the modifier bits [3:0]. -/
def fenceScope (f : VForm) : Nat := (f.moda ++ f.modb).toNat

/-- Every earlier load of the split has performed. -/
def loadsDone (k : SlotCtx) : Bool := (k.g.loadsOf k.sp.mask).isEmpty

/-- The release half has nothing left to wait for. -/
def released (k : SlotCtx) (s : State) (sc : Nat) : Bool :=
  loadsDone k && (k.g.queueOf k.sp.mask).isEmpty && (sc < 4 || k.sp.maxgwct ≤ s.now) &&
    (sc < 7 || k.sp.lastsend == 0 || k.sp.lastsend + 2 ≤ windowOf s.now)

/-- The acquire half: copies granted before now are stale for the split (R206). -/
def acquire (s : State) (gid entry sc : Nat) : State :=
  if sc < 4 then s
  else s.updGroup gid (fun g => match g.split? entry with
    | some sp => g.setSplit entry (some { sp with acqt := max sp.acqt s.now })
    | none => g)

def fenceEff (m : FenceKind) (f : VForm) (k : SlotCtx) (s : State) : Out :=
  let sc := fenceScope f
  if k.ex = 0 then outNone s
  else match m with
    | .rel => if released k s sc then outNone s else .stall s
    | .acq => if loadsDone k then outNone (acquire s k.gid k.entry sc) else .stall s
    | .full => if released k s sc then outNone (acquire s k.gid k.entry sc) else .stall s

/-! ## ARM and WAITM (R216, R217) -/

def armEff (f : MForm) (k : SlotCtx) (s : State) : Out :=
  if k.ex = 0 then outNone s
  else if !loadRoom k then .stall s
  else
    let (s, r) := translateLanes k .read 4 (k.lanes.map (fun l => (l, memAddr k s f.addr f.offs l))) s
    match r with
    | none => .stall s
    | some (fs, acs) =>
      let mk (a : Acc) : PLoad := ⟨a.lane, k.g.issues, a.pa, a.va, 4, f.scope.toNat, .arm, k.wb f.data a.lane 1⟩
      outFaults (addLoads s k.gid (acs.map mk)) [] fs

/-- What each lane reports, and the monitors read back to NONE. -/
def waitmDone (k : SlotCtx) (s : State) : Out :=
  let g := s.getGroup k.gid
  let res (l : Nat) : Word := match g.monitors.get l .none with
    | .fired => 1
    | .lost => 2
    | .none => 3
    | .armed _ => 0
  let r := k.lanes.map (fun l => (l, [res l]))
  let s := s.updGroup k.gid (fun g => { g with monitors := g.monitors.filter (fun e => !k.ex.getLsbD e.1) })
  .done { s with vis := { s.vis with mons := s.vis.mons.filter (fun e => !(e.gid == k.gid && k.ex.getLsbD e.lane)) } } r

def waitmEff (f : VForm) (k : SlotCtx) (s : State) : Out :=
  match k.park with
  | some p => if parkReady s k.g k.entry k.sp p then waitmDone k s else .stall s
  | none =>
    let mon (l : Nat) : Monitor := k.g.monitors.get l .none
    let lost := k.lanes.any (fun l => mon l == .lost)
    let armed := k.lanes.any (fun l => mon l != .lost && mon l != .none)
    let lim := k.lanes.foldl (fun a l => max a (k.rd s f.a l).toNat) 0
    if k.ex = 0 then outNone s
    else if !armed && !lost then outAll k s [3]
    else if lost || anyFired k.g k.ex then waitmDone k s
    else .park s (.waitm (if lim = 0 then none else some (s.now + lim)))

/-- A split parked in WAITM until a time wakes once that time has come. -/
def wakeWaitm (now : Nat) (p : Park) : Park :=
  match p.kind, p.wake with
  | .waitm (some t), none => if t ≤ now then { p with wake := some 0 } else p
  | _, _ => p

/-! ## TIME (R218) -/

def timeEff (f : VForm) (k : SlotCtx) (s : State) : Out :=
  .done s (k.lanes.map (fun l =>
    let x := match (k.rd s f.a l).toNat with
      | 0 => s.now
      | 1 => windowOf s.now
      | 2 => k.sp.maxgwct
      | 3 => k.sp.lastsend
      | _ => 0
    (l, [BitVec.ofNat 32 x, BitVec.ofNat 32 (x / 2 ^ 32)])))

/-! ## The meanings -/

/-- STORE_COMMIT (R200): an entry of a group's store queue commits, if the machine permits it. -/
def execStoreCommit (gid idx : Nat) (s : State) : Host.Outcome State Fault Refusal := .next (tryCommit s gid idx false)

/-- HOST_STORE_ACK (R210): the host acknowledges a store to a sector homed there. -/
def execHostStoreAck (gid idx : Nat) (s : State) : Host.Outcome State Fault Refusal := .next (tryCommit s gid idx true)

/-- COPY_GRANT (R201): a copy of the sector that an outstanding load asks for. -/
def execCopyGrant (gid idx : Nat) (s : State) : Host.Outcome State Fault Refusal :=
  match s.group? gid with
  | none => .next s
  | some g =>
    match g.loads[idx]? with
    | none => .next s
    | some l => .next (if mayGrant s (sectorOf l.pa) then grantCopy s g.core g.ctx (sectorOf l.pa) else s)

/-- LOAD_PERFORM (R202, R203). -/
def execLoadPerform (gid idx : Nat) (grant : Bool) (s : State) : Host.Outcome State Fault Refusal :=
  match s.group? gid with
  | none => .next s
  | some g =>
    match g.loads[idx]? with
    | none => .next s
    | some l =>
      match loadSource s g idx l with
      | .held => .next s
      | src => .next (performLoad s gid idx l src grant)

/-- FENCE (R205). -/
def execFence (m : FenceKind) (f : VForm) (s : State) : Host.Outcome State Fault Refusal :=
  slotStep (.fence m f) (fenceEff m f) s

/-- ARM (R216). -/
def execArm (f : MForm) (s : State) : Host.Outcome State Fault Refusal :=
  slotStep (.arm f) (armEff f) s

/-- WAITM (R217). -/
def execWaitm (f : VForm) (s : State) : Host.Outcome State Fault Refusal :=
  slotStep (.waitm f) (waitmEff f) s

/-- WAITM_TIMEOUT (R217). -/
def execWaitmTimeout (r : SplitRef) (s : State) : Host.Outcome State Fault Refusal :=
  .next (wakePark s r.gid r.entry (wakeWaitm s.now))

/-- TIME (R218). -/
def execTime (f : VForm) (s : State) : Host.Outcome State Fault Refusal :=
  slotStep (.time f) (timeEff f) s

end Sys2Proof.Machine
end

