-- ==== Sys2Proof/Machine/Banked.lean ====
section
/-! DEFINITION. The banked store by address (R117, R137 to R139) and register bursts (R140, R141). -/

namespace Sys2Proof.Machine

/-! ## Spaces (R117) -/

/-- What a banked-store address names: a register window or a scratchpad. -/
inductive BankSpace where
  | win (gid : Nat)
  | blk (id : Nat)
  deriving DecidableEq, Repr, Inhabited

/-- The checks of R138 on one lane's address, in their order. -/
def bankCheck (k : SlotCtx) (s : State) (scope e n : Nat) : LaneFault ⊕ (BankSpace × Nat) :=
  if e % n ≠ 0 then .inl ⟨.misaligned, e, 0⟩
  else match scope with
    | 0 => if e + n ≤ k.g.winBytes then .inr (.win k.gid, e) else .inl ⟨.bounds, e, 0⟩
    | 1 => if e + n ≤ (s.getBlock k.g.block).size then .inr (.blk k.g.block, e) else .inl ⟨.bounds, e, 0⟩
    | _ =>
      if e / 2 ^ 24 ≠ 0 then .inl ⟨.bounds, e, 0⟩
      else match s.groups.find? (fun x => x.core == k.core && x.gslot == e / 2 ^ 18 && x.ctx == k.ctx && x.resident) with
        | none => .inl ⟨.rights, 0, 0⟩
        | some x => if e % 2 ^ 18 + n ≤ x.winBytes then .inr (.win x.gid, e % 2 ^ 18) else .inl ⟨.bounds, e, 0⟩

def readBank (s : State) (b : BankSpace) (off n : Nat) : List Word :=
  match b with
  | .win g => (List.range n).map (fun i => (s.getGroup g).win.get (off / 4 + i) 0)
  | .blk b => wordsOfBytes n ((s.getBlock b).bytes off (4 * n))

def writeBank (s : State) (b : BankSpace) (off : Nat) (ws : List Word) : State :=
  match b with
  | .win g => s.updGroup g (fun x => { x with win := x.win.setRun 0 (off / 4) ws })
  | .blk b => scratchWrite s b off (ws.flatMap bytesOfWord)

/-- Words of the group's own window that outstanding results of the split are due in. -/
def dueWords (k : SlotCtx) : List Nat :=
  k.g.writeBacks.flatMap (fun x =>
    if x.2.dst.sup || x.2.dst.kind || !k.sp.mask.getLsbD x.1 then []
    else (List.range x.2.n).map (fun j => (x.2.dst.idx.toNat + x.2.word + j) * k.g.hdr.width + x.1))

/-- An access to the group's own window waits for them (R139). -/
def bankBusy (k : SlotCtx) (n : Nat) (ts : List (BankSpace × Nat)) : Bool :=
  let due := dueWords k
  !due.isEmpty && ts.any (fun t => t.1 == .win k.gid && due.any (fun w => t.2 / 4 ≤ w && w < t.2 / 4 + n))

/-- A lane's 32-bit address of a format-M access to the banked store. -/
def bankAddr (k : SlotCtx) (s : State) (a : Src) (offs : BitVec 12) (l : Nat) : Nat :=
  (k.rd s a l + offs.signExtend 32).toNat

/-- Lanes that fail their checks, and the targets of the others, lanes ascending. -/
def bankLanes (k : SlotCtx) (s : State) (scope n : Nat) (es : List (Nat × Nat)) : List (Nat × LaneFault) × List (Nat × BankSpace × Nat) :=
  (es.filterMap (fun x => match bankCheck k s scope x.2 n with | .inl f => some (x.1, f) | .inr _ => none),
   es.filterMap (fun x => match bankCheck k s scope x.2 n with | .inl _ => none | .inr t => some (x.1, t.1, t.2)))

/-! ## LDB and STB (R138) -/

def ldbEff (m : LdbW) (f : MForm) (k : SlotCtx) (s : State) : Out :=
  let n := ldbWords m
  let es := k.lanes.map (fun l => (l, bankAddr k s f.addr f.offs l))
  match m with
  | .bcast =>
    match es with
    | [] => outNone s
    | x :: _ =>
      match bankCheck k s f.scope.toNat x.2 4 with
      | .inl fl => .trap s [] ⟨0, k.lanes.map (fun l => (l, fl))⟩
      | .inr t => if bankBusy k 1 [t] then .stall s else outAll k s (readBank s t.1 t.2 1)
  | _ =>
    let (fs, ts) := bankLanes k s f.scope.toNat (4 * n) es
    if bankBusy k n (ts.map (fun t => t.2)) then .stall s
    else outFaults s (ts.map (fun t => (t.1, readBank s t.2.1 t.2.2 n))) fs

/-- A store of the group that retires in the banked store is a progress event (R96). -/
def stbEff (m : Width3) (f : SForm) (k : SlotCtx) (s : State) : Out :=
  let n := widthWords m
  let es := k.lanes.map (fun l => (l, bankAddr k s f.addr f.offs l))
  let (fs, ts) := bankLanes k s f.scope.toNat (4 * n) es
  if bankBusy k n (ts.map (fun t => t.2)) then .stall s
  else
    let s := ts.foldl (fun s' t => writeBank s' t.2.1 t.2.2 (k.rdWords s f.data t.1 n)) s
    outFaults (if ts.isEmpty then s else s.updGroup k.gid Group.progress) [] fs

/-! ## Bursts (R140, R141) -/

/-- Register count and burst offset, if they agree over the executing lanes and are in range: the count,
the offset and the burst's start. -/
inductive BurstOut where
  | ok (n o q : Nat)
  | trap (m : Mask) (c : Cause)

def burstOf (k : SlotCtx) (s : State) (nSrc oSrc : Src) (first : Nat) (spill : Bool) : BurstOut :=
  let l := (lowestLane k.ex).getD 0
  let n := (k.rd s nSrc l).toNat
  let o := (k.rd s oSrc l).toNat
  let z := n * 4 * k.g.hdr.width
  if !k.uniform s nSrc || !k.uniform s oSrc then .trap k.ex .uniformity
  else if n = 0 ∨ 64 < n ∨ o % 16 ≠ 0 ∨ k.g.spillLim < o + z then .trap k.sp.mask .bounds
  else if k.g.vregs < first + n then .trap k.sp.mask .bounds
  else
    let q := k.g.spillLim - o - z
    if spill then (if q < k.g.bb + k.g.maxDepth * 4 * k.g.hdr.width then .trap k.sp.mask .spillFull else .ok n o q)
    else if q < k.g.bb then .trap k.sp.mask .bounds else .ok n o q

/-- A translated piece of a burst: its offset from the burst's start, address, length, page. -/
def burstPieces (k : SlotCtx) (acc : Access) (va n : Nat) (s : State) : State × (Tr ⊕ List (Nat × Nat × Nat × Nat)) :=
  let cs := chunks (n / 64 + 2) va n
  let (s, r) := translateAll k.who k.core k.ctx acc cs s
  match r with
  | .inl t => (s, .inl t)
  | .inr l => (s, .inr ((cs.zip l).map (fun x => (x.1.1 - va, x.2))))

/-- Byte i of a burst: register, lane and byte of the word. -/
def burstByte (width i : Nat) : Nat × Nat × Nat := (i / (4 * width), i % (4 * width) / 4, i % 4)

def spillEff (f : VForm) (k : SlotCtx) (s : State) : Out :=
  if k.ex = 0 then outNone s
  else
    let first := match f.a with | .v i => i.toNat | _ => 0
    match burstOf k s f.b f.c first true with
    | .trap m c => outTrap s m c
    | .ok n o q =>
      if !storeRoom k then .stall s
      else
        let va := k.g.spillBase + q
        let (s, r) := burstPieces k .write va (n * 4 * k.g.hdr.width) s
        match r with
        | .inl (.fault fl) => .trap s [] ⟨0, (lanesOf k.sp.mask).map (fun l => (l, fl))⟩
        | .inl _ => .stall s
        | .inr ps =>
          let low := (lowestLane k.ex).getD 0
          let entry (p : Nat × Nat × Nat × Nat) : Option QEntry :=
            let d := (List.range p.2.2.1).filterMap (fun i =>
              let (j, l, b) := burstByte k.g.hdr.width (p.1 + i)
              if k.ex.getLsbD l then some (p.2.1 + i, byteOf (k.g.vreg (first + j) l) b) else none)
            if d.isEmpty then none else some ⟨low, k.g.issues, p.2.1, va + p.1, p.2.2.2, d, .store, none⟩
          let s := addEntries s k.gid (ps.filterMap entry)
          outNone (s.updGroup k.gid (fun g => { g with burst := max g.burst (o + n * 4 * g.hdr.width) }))

def fillEff (f : VForm) (k : SlotCtx) (s : State) : Out :=
  if k.ex = 0 then outNone s
  else
    match burstOf k s f.a f.b f.dst.idx.toNat false with
    | .trap m c => outTrap s m c
    | .ok n _ q =>
      if !loadRoom k then .stall s
      else
        let va := k.g.spillBase + q
        let (s, r) := burstPieces k .read va (n * 4 * k.g.hdr.width) s
        match r with
        | .inl (.fault fl) => .trap s [] ⟨0, (lanesOf k.sp.mask).map (fun l => (l, fl))⟩
        | .inl _ => .stall s
        | .inr ps =>
          -- bursts of the group's other splits over these bytes come first
          let busy := k.g.queue.any (fun e => !k.sp.mask.getLsbD e.lane &&
            ps.any (fun p => e.data.any (fun d => p.2.1 ≤ d.1 && d.1 < p.2.1 + p.2.2.1)))
          if busy then .stall s
          else
            let words (p : Nat × Nat × Nat × Nat) : List PLoad := (List.range (p.2.2.1 / 4)).filterMap (fun i =>
              let (j, l, _) := burstByte k.g.hdr.width (p.1 + 4 * i)
              if k.ex.getLsbD l then
                some ⟨l, k.g.issues, p.2.1 + 4 * i, va + p.1 + 4 * i, 4, 5, .plain, { k.wb f.dst l 1 with word := j }⟩
              else none)
            outNone (addLoads s k.gid (ps.flatMap words))

/-! ## The meanings -/

/-- LDB (R137, R138). -/
def execLdb (m : LdbW) (f : MForm) (s : State) : Host.Outcome State Fault Refusal :=
  slotStep (.ldb m f) (ldbEff m f) s
/-- STB (R137, R138). -/
def execStb (m : Width3) (f : SForm) (s : State) : Host.Outcome State Fault Refusal :=
  slotStep (.stb m f) (stbEff m f) s
/-- SPILL (R140, R141). -/
def execSpill (f : VForm) (s : State) : Host.Outcome State Fault Refusal :=
  slotStep (.spill f) (spillEff f) s
/-- FILL (R140, R141). -/
def execFill (f : VForm) (s : State) : Host.Outcome State Fault Refusal :=
  slotStep (.fill f) (fillEff f) s

end Sys2Proof.Machine
end

