-- ==== Sys2Proof/Machine/Tensor.lean ====
section
/-! DEFINITION. Handles and the handle cache (R170 to R174), tensor accesses (R175, R191), address
accesses, atomics, reservations and prefetch (R188 to R196). -/

namespace Sys2Proof.Machine

/-! ## Layout records (R170, R171) -/

def elemSize (ty : Nat) : Nat := if ty < 2 then 1 else if ty < 4 ∨ ty = 6 ∨ ty = 7 then 2 else 4
def elemSigned (ty : Nat) : Bool := ty == 1 || ty == 3

def recType (b : List Byte) : Nat := leAt b 8 1
def recRank (b : List Byte) : Nat := leAt b 9 1 % 8
def recMode (b : List Byte) : Nat := bitsOf (leAt b 9 1) 3 2
def recScratch (b : List Byte) : Bool := bitsOf (leAt b 9 1) 5 1 == 1
def recGen (b : List Byte) : Nat := leAt b 10 1
def recBase (b : List Byte) : Nat := leAt b 0 8
def recDim (b : List Byte) (i : Nat) : Nat := leAt b (20 + 4 * i) 4
/-- A 48-bit signed stride; the stride of dimension 0 is the element size. -/
def recStr (b : List Byte) (i : Nat) : Int :=
  if i = 0 then elemSize (recType b) else (BitVec.ofNat 48 (leAt b (40 + 6 * (i - 1)) 6)).toInt

/-- R171. -/
def recordValid (b : List Byte) : Bool :=
  let ty := recType b
  let rank := recRank b
  let es := elemSize ty
  ty < 10 && recMode b < 3 && 1 ≤ rank && rank ≤ 5 && bitsOf (leAt b 9 1) 6 2 == 0 &&
    (List.range 5).all (fun i => if i < rank then 1 ≤ recDim b i else recDim b i == 0 && (i == 0 || recStr b i == 0)) &&
    recBase b / 2 ^ 56 == 0 && recBase b % es == 0 &&
    (List.range rank).all (fun i => recStr b i % (es : Int) == 0) &&
    leAt b 11 1 % 16 ≤ 8 && leAt b 11 1 / 16 ≤ 8 && leAt b 15 1 == 0 && (!recScratch b || bitsOf (recBase b) 32 24 == 0)

/-! ## The handle cache (R174) -/

inductive HOut where
  | ok (rec : List Byte)
  | fault (f : LaneFault)
  | stall
  deriving DecidableEq, Repr, Inhabited

def handleFault (cond : Nat) : LaneFault := ⟨.handle, 0, cond⟩

/-- Address of record i (R172). -/
def recordAddr (c : Ctx) (i : Nat) : Nat := bitsOf c.htab.toNat 6 50 * 64 + 64 * i
def handleCount (c : Ctx) : Nat := c.hlim.toNat % 2 ^ 25

/-- The newest entries of a core stay. -/
def trimCache (core cap : Nat) (l : List HEntry) : List HEntry :=
  let mine := (l.filter (fun e => e.core == core)).take cap
  l.filter (fun e => e.core != core || mine.contains e)

/-- The record of an index through the core's handle cache, filled if absent. -/
def fillRecord (who : Agent) (core ctx i : Nat) (s : State) : State × HOut :=
  match s.vis.hcache.find? (fun e => e.core == core && e.ctx == ctx && e.idx == i) with
  | some e =>
    ({ s with vis := { s.vis with hcache := e :: s.vis.hcache.filter (fun x => !(x.core == core && x.ctx == ctx && x.idx == i)) } }, .ok e.bytes)
  | none =>
    let (s, r) := translate s who core ctx (recordAddr (s.getCtx ctx) i) .read
    match r with
    | .stall _ => (s, .stall)
    | .fault f => (s, .fault f)
    | .ok pa _ =>
      if s.vis.isOwned (sectorOf pa) then (s, .stall)
      else
        let b := s.rdBytes pa 64
        let s := (s.count ctx 0x0002 64).charge ctx 1 1
        let s := { s with vis := { s.vis with copies := s.vis.copies.filter (fun c => !(c.core == core && c.sector == sectorOf pa)) } }
        if !recordValid b then (s, .fault (handleFault 1))
        else ({ s with vis := { s.vis with hcache := trimCache core 128 (⟨core, ctx, i, b⟩ :: s.vis.hcache) } }, .ok b)

/-- Resolve a handle (R173). -/
def resolve (who : Agent) (core ctx : Nat) (h : Word) (s : State) : State × HOut :=
  let i := h.toNat % 2 ^ 24
  if handleCount (s.getCtx ctx) ≤ i then (s, .fault (handleFault 0))
  else
    let (s, r) := fillRecord who core ctx i s
    match r with
    | .ok b => if recGen b = h.toNat / 2 ^ 24 then (s, .ok b) else (s, .fault (handleFault 2))
    | r => (s, r)

/-- Run a lane action over lanes; none where one stalls. -/
def eachLane {α : Type} (act : Nat → State → State × (Option (LaneFault ⊕ α))) :
    List Nat → State → State × Option (List (Nat × LaneFault) × List (Nat × α))
  | [], s => (s, some ([], []))
  | l :: ls, s =>
    let (s, r) := act l s
    match r with
    | none => (s, none)
    | some x =>
      let (s, rest) := eachLane act ls s
      (s, rest.map (fun y => match x with
        | .inl f => ((l, f) :: y.1, y.2)
        | .inr a => (y.1, (l, a) :: y.2)))

def HOut.lane {α : Type} (r : HOut) (f : List Byte → α) : Option (LaneFault ⊕ α) :=
  match r with
  | .stall => none
  | .fault x => some (.inl x)
  | .ok b => some (.inr (f b))

/-! ## HBIND, HINFO, HINV (R188 to R190) -/

def hbindEff (f : VForm) (k : SlotCtx) (s : State) : Out :=
  let (s, r) := eachLane (fun l s =>
    let i := (k.rd s f.a l).toNat
    if handleCount (s.getCtx k.ctx) ≤ i then (s, some (.inl (handleFault 0)))
    else
      let (s, r) := fillRecord k.who k.core k.ctx i s
      (s, r.lane (fun b => BitVec.ofNat 32 (recGen b * 2 ^ 24 + i)))) k.lanes s
  match r with
  | none => .stall s
  | some (fs, rs) => outFaults s (rs.map (fun x => (x.1, [x.2]))) fs

/-- HINFO's selector table (R189). -/
def hinfoOf (b : List Byte) (sel : Nat) : Word :=
  if sel = 0 then BitVec.ofNat 32 (leAt b 8 4)
  else if sel = 1 then BitVec.ofNat 32 (leAt b 12 4)
  else if sel = 2 then BitVec.ofNat 32 (leAt b 16 4)
  else if sel < 8 then BitVec.ofNat 32 (recDim b (sel - 3))
  else if sel = 8 then BitVec.ofNat 32 (leAt b 0 4)
  else if sel = 9 then BitVec.ofNat 32 (leAt b 4 4)
  else if sel < 18 then
    let x := recStr b ((sel - 10) / 2 + 1)
    if sel % 2 = 0 then BitVec.ofInt 32 x else BitVec.ofInt 32 (x / 65536)
  else 0

def hinfoEff (f : VForm) (k : SlotCtx) (s : State) : Out :=
  let (s, r) := eachLane (fun l s =>
    let (s, r) := resolve k.who k.core k.ctx (k.rd s f.a l) s
    (s, r.lane (fun b => hinfoOf b (k.rd s f.b l).toNat))) k.lanes s
  match r with
  | none => .stall s
  | some (fs, rs) => outFaults s (rs.map (fun x => (x.1, [x.2]))) fs

/-- Place of one index's GEN byte, checked before any HINV acts. -/
def hinvPlan (k : SlotCtx) : List Nat → State → State × Option (List (Nat × (LaneFault ⊕ (Nat × Nat))))
  | [], s => (s, some [])
  | i :: is, s =>
    if handleCount (s.getCtx k.ctx) ≤ i then
      let (s, r) := hinvPlan k is s
      (s, r.map (fun x => (i, .inl (handleFault 0)) :: x))
    else
      let (s, t) := translate s k.who k.core k.ctx (recordAddr (s.getCtx k.ctx) i) .rmw
      match t with
      | .stall _ => (s, none)
      | .fault fl =>
        let (s, r) := hinvPlan k is s
        (s, r.map (fun x => (i, .inl fl) :: x))
      | .ok pa ip =>
        if s.vis.isOwned (sectorOf pa) || (k.g.queueOf k.sp.mask).any (fun e => sectorOf e.pa == sectorOf pa) then (s, none)
        else
          let (s, r) := hinvPlan k is s
          (s, r.map (fun x => (i, .inr (pa, ip)) :: x))

/-- One index retires: GEN grows by one at its home, every core drops the record. -/
def hinvOne (k : SlotCtx) (s : State) (i pa ip : Nat) : State × Word :=
  let gen := ((s.rdByte (pa + 10)).toNat + 1) % 256
  let sec := sectorOf pa
  let gw := s.gwctOf sec
  let s := setDirty (homeCommit s (some (k.gid, 128)) (some k.cluster) sec [(pa + 10, BitVec.ofNat 8 gen)]) k.ctx ip
  let s := ((noteGwct s k.gid ((lowestLane k.sp.mask).getD 0) gw).count k.ctx 0x0002 1).charge k.ctx 1 1
  ({ s with vis := { s.vis with hcache := s.vis.hcache.filter (fun e => !(e.ctx == k.ctx && e.idx == i)) } }, BitVec.ofNat 32 (gen * 2 ^ 24 + i))

def hinvAll (k : SlotCtx) : List (Nat × (LaneFault ⊕ (Nat × Nat))) → State → State × List (Nat × (LaneFault ⊕ Word))
  | [], s => (s, [])
  | (i, .inl f) :: ps, s =>
    let (s, r) := hinvAll k ps s
    (s, (i, .inl f) :: r)
  | (i, .inr p) :: ps, s =>
    let (s, w) := hinvOne k s i p.1 p.2
    let (s, r) := hinvAll k ps s
    (s, (i, .inr w) :: r)

def hinvEff (f : VForm) (k : SlotCtx) (s : State) : Out :=
  let idx (l : Nat) : Nat := (k.rd s f.a l).toNat
  let is := (k.lanes.foldl (fun m l => SMap.put m (idx l) ()) ([] : SMap Unit)).map (fun e => e.1)
  let (s, p) := hinvPlan k is s
  match p with
  | none => .stall s
  | some p =>
    let (s, r) := hinvAll k p s
    let of (l : Nat) : Option (LaneFault ⊕ Word) := (r.find? (fun x => x.1 == idx l)).map (fun x => x.2)
    outFaults s (k.lanes.filterMap (fun l => match of l with | some (.inr w) => some (l, [w]) | _ => none))
      (k.lanes.filterMap (fun l => match of l with | some (.inl x) => some (l, x) | _ => none))

/-! ## Tensor accesses (R175, R191) -/

/-- What a lane's coordinates lead to. -/
inductive TLane where
  | pad (w : Word)
  | drop
  | mem (va es : Nat) (signed : Bool)
  | scr (off es : Nat) (signed : Bool)
  deriving DecidableEq, Repr, Inhabited

/-- The element address, exactly. -/
def elemAddr (b : List Byte) (cs : List Int) : Int :=
  (List.range (recRank b)).foldl (fun a i => a + cs.getD i 0 * recStr b i) (recBase b)

def coordsIn (b : List Byte) (cs : List Int) : Bool :=
  (List.range (recRank b)).all (fun i => 0 ≤ cs.getD i 0 && cs.getD i 0 < recDim b i)

def clampCoords (b : List Byte) (cs : List Int) : List Int :=
  (List.range (recRank b)).map (fun i => min (max (cs.getD i 0) 0) ((recDim b i : Int) - 1))

/-- Whether RANK coordinate registers from a field lie inside the allotment (R40, R191). -/
def coordRegs (k : SlotCtx) (c : Src) (rank : Nat) : Bool := srcIn k.g.vregs 128 (c, rank)

/-- R175 for one lane. -/
def tensorLane (k : SlotCtx) (s : State) (b : List Byte) (coord : Src) (offs : BitVec 12) (store : Bool) (l : Nat) : LaneFault ⊕ TLane :=
  let es := elemSize (recType b)
  let sg := elemSigned (recType b)
  if !coordRegs k coord (recRank b) then .inl ⟨.bounds, 0, 0⟩
  else
    let c0 := k.word s coord l 0 + offs.signExtend 32
    let cs := c0.toInt :: (List.range (recRank b - 1)).map (fun i => (k.word s coord l (i + 1)).toInt)
    let at' (cs : List Int) : LaneFault ⊕ TLane :=
      let e := elemAddr b cs
      if e < 0 ∨ 2 ^ 56 ≤ e then .inl ⟨.bounds, (e % 18446744073709551616).toNat, 0⟩
      else if recScratch b then
        (if (s.getBlock k.g.block).size < e.toNat + es then .inl ⟨.bounds, e.toNat, 0⟩ else .inr (.scr e.toNat es sg))
      else .inr (.mem e.toNat es sg)
    if coordsIn b cs then at' cs
    else match recMode b with
      | 0 => .inr (if store then .drop else .pad (extendElem es sg (leAt b 16 es)))
      | 1 => if store then .inr .drop else at' (clampCoords b cs)
      | _ => .inl ⟨.bounds, 0, 0⟩

/-- Resolve and place every lane. -/
def tensorLanes (k : SlotCtx) (addr coord : Src) (offs : BitVec 12) (store : Bool) (s : State) :
    State × Option (List (Nat × LaneFault) × List (Nat × TLane)) :=
  eachLane (fun l s =>
    let (s, r) := resolve k.who k.core k.ctx (k.rd s addr l) s
    (s, match r with
      | .stall => none
      | .fault x => some (.inl x)
      | .ok b => some (tensorLane k s b coord offs store l))) k.lanes s

/-- Faults of two lists in lane order. -/
def joinFaults (k : SlotCtx) (a b : List (Nat × LaneFault)) : List (Nat × LaneFault) :=
  k.lanes.filterMap (fun l => (a ++ b).find? (fun x => x.1 == l))

def memOf (ts : List (Nat × TLane)) : List (Nat × Nat) :=
  ts.filterMap (fun t => match t.2 with | .mem va _ _ => some (t.1, va) | _ => none)

def elemOf (ts : List (Nat × TLane)) (l : Nat) : Nat × Bool :=
  match ts.find? (fun t => t.1 == l) with
  | some (_, .mem _ es sg) => (es, sg)
  | _ => (4, false)

def ldtEff (f : MForm) (k : SlotCtx) (s : State) : Out :=
  if k.ex = 0 then outNone s
  else if !loadRoom k then .stall s
  else
    let (s, r) := tensorLanes k f.addr f.coord f.offs false s
    match r with
    | none => .stall s
    | some (fs, ts) =>
      let (s, r) := translateLanes k .read 1 (memOf ts) s
      match r with
      | none => .stall s
      | some (fs', acs) =>
        let now' := ts.filterMap (fun t => match t.2 with
          | .pad w => some (t.1, [w])
          | .scr off es sg => some (t.1, [extendElem es sg ((s.getBlock k.g.block).nat off es)])
          | _ => none)
        let mk (a : Acc) : PLoad :=
          let (es, sg) := elemOf ts a.lane
          ⟨a.lane, k.g.issues, a.pa, a.va, es, f.scope.toNat, .elem es sg, k.wb f.data a.lane 1⟩
        outFaults (addLoads s k.gid (acs.map mk)) now' (joinFaults k fs fs')

/-- Store-queue entries of one issue, lanes ascending: where lanes write the same byte the highest
stands (R191, R192). -/
def storeEntries (tag : Nat) : List (Acc × List Byte) → List QEntry × SMap Unit
  | [] => ([], [])
  | (a, bs) :: rest =>
    let (es, cov) := storeEntries tag rest
    let d := (bytesAt a.pa bs).filter (fun e => (cov.get? e.1).isNone)
    let cov := (bytesAt a.pa bs).foldl (fun m e => m.put e.1 ()) cov
    (if d.isEmpty then es else ⟨a.lane, tag, a.pa, a.va, a.ipage, d, .store, none⟩ :: es, cov)

def sttEff (f : SForm) (k : SlotCtx) (s : State) : Out :=
  if k.ex = 0 then outNone s
  else if !storeRoom k then .stall s
  else
    let (s, r) := tensorLanes k f.addr f.coord f.offs true s
    match r with
    | none => .stall s
    | some (fs, ts) =>
      let (s, r) := translateLanes k .write 1 (memOf ts) s
      match r with
      | none => .stall s
      | some (fs', acs) =>
        let val (l : Nat) : Nat := (k.rd s f.data l).toNat
        let s' := ts.foldl (fun s' t => match t.2 with
          | .scr off es _ => scratchWrite s' k.g.block off (bytesOfNat es (val t.1))
          | _ => s') s
        let s' := if ts.any (fun t => match t.2 with | .scr _ _ _ => true | _ => false) then s'.updGroup k.gid Group.progress else s'
        let es := (storeEntries k.g.issues (acs.map (fun a => (a, bytesOfNat (elemOf ts a.lane).1 (val a.lane))))).1
        outFaults (addEntries s' k.gid es) [] (joinFaults k fs fs')

/-! ## LDG, STG (R192) -/

def ldgEff (m : Width3) (f : MForm) (k : SlotCtx) (s : State) : Out :=
  let n := widthWords m
  if k.ex = 0 then outNone s
  else if !loadRoom k then .stall s
  else
    let (s, r) := translateLanes k .read (4 * n) (k.lanes.map (fun l => (l, memAddr k s f.addr f.offs l))) s
    match r with
    | none => .stall s
    | some (fs, acs) =>
      let mk (a : Acc) : PLoad := ⟨a.lane, k.g.issues, a.pa, a.va, 4 * n, f.scope.toNat, .plain, k.wb f.data a.lane n⟩
      outFaults (addLoads s k.gid (acs.map mk)) [] fs

def stgEff (m : Width3) (f : SForm) (k : SlotCtx) (s : State) : Out :=
  let n := widthWords m
  if k.ex = 0 then outNone s
  else if !storeRoom k then .stall s
  else
    let (s, r) := translateLanes k .write (4 * n) (k.lanes.map (fun l => (l, memAddr k s f.addr f.offs l))) s
    match r with
    | none => .stall s
    | some (fs, acs) =>
      let es := (storeEntries k.g.issues (acs.map (fun a => (a, (k.rdWords s f.data a.lane n).flatMap bytesOfWord)))).1
      outFaults (addEntries s k.gid es) [] fs

/-! ## ATOM and CAS (R193) -/

/-- Operation of an ATOM or CAS on an old value, by its operand words. -/
def rmwOf (i : Instr) (old v new : Word) : Word :=
  match i with
  | .atom op _ => atomOf op old v
  | _ => if old = v then new else old

def rmwKind (i : Instr) (v new : Word) : QKind :=
  match i with
  | .atom op _ => .atom op v
  | _ => .cas v new

/-- Operand v, or compare and new value. -/
def rmwOperands (i : Instr) (f : MForm) (k : SlotCtx) (s : State) (l : Nat) : Word × Word :=
  match i with
  | .atom .fadd _ => (BitVec.ofNat 32 (k.rdF32 s f.coord l), 0)
  | .atom _ _ => (k.rd s f.coord l, 0)
  | _ => (k.word s f.coord l 0, k.word s f.coord l 1)

/-- In the banked store, lane by lane, at once. -/
def rmwBank (i : Instr) (f : MForm) (k : SlotCtx) : List (Nat × BankSpace × Nat) → State → State × List (Nat × List Word)
  | [], s => (s, [])
  | (l, b, off) :: ts, s =>
    let old := (readBank s b off 1).headD 0
    let (v, new) := rmwOperands i f k s l
    let s := writeBank s b off [rmwOf i old v new]
    let (s, r) := rmwBank i f k ts s
    (s, (l, [old]) :: r)

/-- Operand words of a lane: its address and values as they stood when the slot began. -/
def rmwCaught (i : Instr) (f : MForm) (k : SlotCtx) (s : State) (l : Nat) : List Word :=
  if k.c.sent ≠ 0 then (List.range 4).map (fun w => k.c.latchOf k.c.slot w l)
  else
    let e := memAddr k s f.addr f.offs l
    let (v, new) := rmwOperands i f k s l
    [BitVec.ofNat 32 e, BitVec.ofNat 32 (e / 2 ^ 32), v, new]

/-- The clause of the split at the slot, changed. -/
def updClause (s : State) (gid entry : Nat) (f : Clause → Clause) : State :=
  s.updGroup gid (fun g => match g.split? entry with
    | some sp => g.setSplit entry (some { sp with clause := sp.clause.map f })
    | none => g)

/-- At homes: lanes are sent in ascending order as R29 leaves room; the split stays until all are. -/
def rmwHome (i : Instr) (f : MForm) (k : SlotCtx) (s : State) : Out :=
  let left := lanesOf (k.ex &&& ~~~k.c.sent)
  let caught (l : Nat) : List Word := rmwCaught i f k s l
  let addr (l : Nat) : Nat := (caught l).getD 0 0 |>.toNat |> (· + ((caught l).getD 1 0).toNat * 2 ^ 32)
  let (s, r) := translateLanes k .rmw 4 (left.map (fun l => (l, addr l))) s
  match r with
  | none => .stall s
  | some (fs, acs) =>
    let room := 15 - max (k.g.loadCount k.sp.mask) (k.g.storeCount k.sp.mask)
    let go := acs.take room
    let rest := acs.drop room
    let entry (a : Acc) : QEntry :=
      ⟨a.lane, k.g.issues, a.pa, a.va, a.ipage, [], rmwKind i ((caught a.lane).getD 2 0) ((caught a.lane).getD 3 0), some (k.wb f.data a.lane 1)⟩
    if go.isEmpty then (if rest.isEmpty then outFaults s [] fs else .stall s)
    else
      let m := maskOf (go.map (fun a => a.lane))
      let s' := addEntries s k.gid (go.map entry)
      if rest.isEmpty && fs.isEmpty then .done s' []
      else .stall (updClause s' k.gid k.entry (fun c =>
        let c := (lanesOf (k.ex &&& ~~~k.c.sent &&& ~~~m)).foldl (fun c l => c.setLatch c.slot l 0 (caught l)) c
        let c := (lanesOf m).foldl (fun c l => c.setLatch c.slot l 0 [0, 0, 0, 0]) c
        { c with sent := c.sent ||| m }))

def rmwEff (i : Instr) (f : MForm) (k : SlotCtx) (s : State) : Out :=
  if k.ex = 0 then outNone s
  else if f.scope.toNat < 3 then
    let (fs, ts) := bankLanes k s f.scope.toNat 4 (k.lanes.map (fun l => (l, bankAddr k s f.addr f.offs l)))
    if bankBusy k 1 (ts.map (fun t => t.2)) then .stall s
    else
      let (s, r) := rmwBank i f k ts s
      outFaults (if ts.isEmpty then s else s.updGroup k.gid Group.progress) r fs
  else rmwHome i f k s

/-! ## LR, SC, PREF (R194 to R196) -/

def lrEff (f : MForm) (k : SlotCtx) (s : State) : Out :=
  if k.ex = 0 then outNone s
  else if !loadRoom k then .stall s
  else
    let (s, r) := translateLanes k .read 4 (k.lanes.map (fun l => (l, memAddr k s f.addr f.offs l))) s
    match r with
    | none => .stall s
    | some (fs, acs) =>
      let mk (a : Acc) : PLoad := ⟨a.lane, k.g.issues, a.pa, a.va, 4, f.scope.toNat, .lr, k.wb f.data a.lane 1⟩
      outFaults (addLoads s k.gid (acs.map mk)) [] fs

def scEff (f : MForm) (k : SlotCtx) (s : State) : Out :=
  if k.ex = 0 then outNone s
  else if !storeRoom k then .stall s
  else
    let (s, r) := translateLanes k .rmw 4 (k.lanes.map (fun l => (l, memAddr k s f.addr f.offs l))) s
    match r with
    | none => .stall s
    | some (fs, acs) =>
      let mk (a : Acc) : QEntry := ⟨a.lane, k.g.issues, a.pa, a.va, a.ipage, [], .sc (k.rd s f.coord a.lane), some (k.wb f.data a.lane 1)⟩
      outFaults (addEntries s k.gid (acs.map mk)) [] fs

/-! ## The meanings -/

/-- HBIND (R188). -/
def execHbind (f : VForm) (s : State) : Host.Outcome State Fault Refusal :=
  slotStep (.hbind f) (hbindEff f) s
/-- HINFO (R189). -/
def execHinfo (f : VForm) (s : State) : Host.Outcome State Fault Refusal :=
  slotStep (.hinfo f) (hinfoEff f) s
/-- HINV (R190). -/
def execHinv (f : VForm) (s : State) : Host.Outcome State Fault Refusal :=
  slotStep (.hinv f) (hinvEff f) s
/-- LDT (R191). -/
def execLdt (f : MForm) (s : State) : Host.Outcome State Fault Refusal :=
  slotStep (.ldt f) (ldtEff f) s
/-- STT (R191). -/
def execStt (f : SForm) (s : State) : Host.Outcome State Fault Refusal :=
  slotStep (.stt f) (sttEff f) s
/-- LDG (R192). -/
def execLdg (m : Width3) (f : MForm) (s : State) : Host.Outcome State Fault Refusal :=
  slotStep (.ldg m f) (ldgEff m f) s
/-- STG (R192). -/
def execStg (m : Width3) (f : SForm) (s : State) : Host.Outcome State Fault Refusal :=
  slotStep (.stg m f) (stgEff m f) s
/-- ATOM (R193). -/
def execAtom (m : AtomOp) (f : MForm) (s : State) : Host.Outcome State Fault Refusal :=
  slotStep (.atom m f) (rmwEff (.atom m f) f) s
/-- CAS (R193). -/
def execCas (f : MForm) (s : State) : Host.Outcome State Fault Refusal :=
  slotStep (.cas f) (rmwEff (.cas f) f) s
/-- LR (R194). -/
def execLr (f : MForm) (s : State) : Host.Outcome State Fault Refusal :=
  slotStep (.lr f) (lrEff f) s
/-- SC (R195). -/
def execSc (f : MForm) (s : State) : Host.Outcome State Fault Refusal :=
  slotStep (.sc f) (scEff f) s
/-- PREF (R196): a prefetch changes no value and waits for nothing. -/
def execPref (f : MForm) (s : State) : Host.Outcome State Fault Refusal :=
  slotStep (.pref f) (fun _ s => outNone s) s

end Sys2Proof.Machine
end

