-- ==== Sys2Proof/Machine/Branch.lean ====
section
/-! DEFINITION. Control flow (R100 to R111) and the watchdog's and issue's own events (R83, R97). A
transfer is recorded at its slot and acts when its clause ends (R88). -/

namespace Sys2Proof.Machine

/-- CLAUSE_ISSUE (R51): the unit that issues stands at a header. -/
def execClauseIssue (s : State) : Host.Outcome State Fault Refusal := .next (clauseIssueUnit s)

/-- The per-lane words of a source, recorded with a transfer. -/
def xferWords (k : SlotCtx) (s : State) (x : Src) : SMap Word :=
  k.lanes.foldl (fun m l => m.set 0 l (k.rd s x l)) []

/-- BR (R101). -/
def execBr (m : BrKind) (f : BForm) (s : State) : Host.Outcome State Fault Refusal :=
  slotStep (.br m f) (fun _ s => .xfer s []) s
/-- BRA (R101). -/
def execBra (f : BForm) (s : State) : Host.Outcome State Fault Refusal :=
  slotStep (.bra f) (fun _ s => .xfer s []) s
/-- JMPI (R99, R103). -/
def execJmpi (f : BForm) (s : State) : Host.Outcome State Fault Refusal :=
  slotStep (.jmpi f) (fun k s => .xfer s (xferWords k s f.indir)) s
/-- CALL (R102). -/
def execCall (f : BForm) (s : State) : Host.Outcome State Fault Refusal :=
  slotStep (.call f) (fun _ s => .xfer s []) s
/-- CALLI (R99, R102). -/
def execCalli (f : BForm) (s : State) : Host.Outcome State Fault Refusal :=
  slotStep (.calli f) (fun k s => .xfer s (xferWords k s f.indir)) s
/-- RET (R102). -/
def execRet (f : BForm) (s : State) : Host.Outcome State Fault Refusal :=
  slotStep (.ret f) (fun _ s => .xfer s []) s
/-- PLBR (R104). -/
def execPlbr (f : BForm) (s : State) : Host.Outcome State Fault Refusal :=
  slotStep (.plbr f) (fun k s => .xfer s (xferWords k s f.indir)) s
/-- EXIT (R108); in a program it ends the program (R234, R242). -/
def execExit (f : VForm) (s : State) : Host.Outcome State Fault Refusal :=
  slotStep (.exit f) (fun _ s => .xfer s []) s

/-- KSET (R106): the first issue of a clause sets Kn, later ones add to it. -/
def ksetEff (f : BForm) (k : SlotCtx) (s : State) : Out :=
  let n := f.kidx.toNat
  outNone (s.updGroup k.gid (fun g => joinwTest (g.setK n (if k.c.first then k.ex else g.kreg n ||| k.ex)) n))

/-- KSET (R106). -/
def execKset (f : BForm) (s : State) : Host.Outcome State Fault Refusal :=
  slotStep (.kset f) (ksetEff f) s
/-- JOIN (R92, R93): the join is made at the clause's header; its slot then does nothing. -/
def execJoin (f : BForm) (s : State) : Host.Outcome State Fault Refusal :=
  slotStep (.join f) (fun _ s => outNone s) s
/-- JOINW (R92, R93): as JOIN. -/
def execJoinw (f : BForm) (s : State) : Host.Outcome State Fault Refusal :=
  slotStep (.joinw f) (fun _ s => outNone s) s

/-- PLSET (R107). -/
def plsetEff (f : VForm) (k : SlotCtx) (s : State) : Out :=
  let new (l : Nat) : Nat := (k.rd s f.a l).toNat
  let bad (l : Nat) : Option LaneFault := plbrFault k.g (l, new l)
  let good := k.lanes.filter (fun l => (bad l).isNone)
  let s := s.updGroup k.gid (fun g => { g with plane := good.foldl (fun p l => p.set 0 l (new l)) g.plane })
  outFaults s (good.map (fun l => (l, [BitVec.ofNat 32 (k.g.plane.get l 0)])))
    (k.lanes.filterMap (fun l => (bad l).map (fun x => (l, x))))

/-- PLSET (R107). -/
def execPlset (f : VForm) (s : State) : Host.Outcome State Fault Refusal :=
  slotStep (.plset f) (plsetEff f) s
/-- NOP (R109). -/
def execNop (f : VForm) (s : State) : Host.Outcome State Fault Refusal :=
  slotStep (.nop f) (fun _ s => outNone s) s
/-- YIELD (R109). -/
def execYield (f : VForm) (s : State) : Host.Outcome State Fault Refusal :=
  slotStep (.yield f) (fun k s =>
    outNone (if k.ex = 0 then s else updClause s k.gid k.entry (fun c => { c with yielded := true }))) s

/-- WDOG (R111). -/
def wdogEff (f : VForm) (k : SlotCtx) (s : State) : Out :=
  if k.ex = 0 then outNone s
  else if !k.uniform s f.a then outTrap s k.ex .uniformity
  else
    let s' := if k.rd s f.a ((lowestLane k.ex).getD 0) ≠ 0 then s.updGroup k.gid Group.progress else s
    outAll k s' [BitVec.ofNat 32 (min k.g.wdog 0xFFFFFFFF)]

/-- WDOG (R111). -/
def execWdog (f : VForm) (s : State) : Host.Outcome State Fault Refusal :=
  slotStep (.wdog f) (wdogEff f) s

/-- FAIR_HOLD_EXPIRE (R83): the holder has issued for CX.FAIR cycles while another split stood ready. -/
def execFairHoldExpire (gid : Nat) (s : State) : Host.Outcome State Fault Refusal :=
  match s.group? gid with
  | none => .next s
  | some g =>
    match fairLimit s g.ctx with
    | some n => .next (if n ≤ g.held then s.updGroup gid (fun g => { g with pass := true }) else s)
    | none => .next s

/-- WATCHDOG (R96, R97): the count has reached CX.WDOG. -/
def execWatchdog (gid : Nat) (s : State) : Host.Outcome State Fault Refusal :=
  match s.group? gid with
  | none => .next s
  | some g => .next (if wdogDue s g then settleAll (watchdogTrap s gid) gid else s)

end Sys2Proof.Machine
end

