-- ==== Sys2Proof/Machine/Launch.lean ====
section
/-! DEFINITION. Launches from their header to their completion word (R56 to R61, R277), seedbeds (R65),
admission to a core, and the release of groups and blocks (R61, R95, R114). -/

namespace Sys2Proof.Machine

/-! ## The launch header (R56, R57) -/

def widthOf (c : Nat) : Nat := if c = 0 then 16 else if c = 1 then 32 else if c = 2 then 64 else 128

def LaunchHdr.ofBytes (b : List Byte) : LaunchHdr :=
  { codeBase := leAt b 0 8, codeSize := leAt b 8 4, entry := leAt b 12 4, width := widthOf (leAt b 16 1 % 4), vregs8 := leAt b 17 1,
    groups := leAt b 18 1 % 32 + 1, planes := BitVec.ofNat 4 (leAt b 19 1), plshift := leAt b 19 1 / 16 + 12, scratch := leAt b 20 2,
    sbtimer := leAt b 22 2, widths := (List.range 6).map (fun f => bitsOf (leAt b 24 8) (6 * f) 6), aff := bitsOf (leAt b 24 8) 36 3,
    dims := (List.range 4).map (fun i => leAt b (32 + 4 * i) 4), args := leAt b 48 8, feedtab := leAt b 56 8, feedper := leAt b 64 2,
    feedslots := leAt b 66 2, doneaddr := leAt b 72 8, donetag := leAt b 80 6, fmtinit := BitVec.ofNat 32 (leAt b 88 4) }

def allZero (b : List Byte) (o n : Nat) : Bool := ((b.drop o).take n).all (fun x => x == 0)

/-- BADHEADER of R57. -/
def hdrBad (b : List Byte) : Bool :=
  let h := LaunchHdr.ofBytes b
  let w (f : Nat) : Nat := h.widths.getD f 0
  !(h.codeBase % 4096 == 0 && h.codeBase < 2 ^ 56 && h.codeSize % 8 == 0 && 16 ≤ h.codeSize && h.entry % 8 == 0 && h.entry < h.codeSize &&
    leAt b 16 1 < 4 && 1 ≤ h.vregs8 && h.vregs8 ≤ 64 && leAt b 18 1 < 32 && h.planes.getLsbD 0 &&
    (h.planes == 1 || h.codeSize ≤ 2 ^ h.plshift) && h.scratch ≤ 1024 &&
    bitsOf (leAt b 24 8) 39 25 == 0 && h.widths.all (fun x => x ≤ 32) && h.widths.foldl (· + ·) 0 ≤ 64 &&
    h.width ≤ 2 ^ w 0 && h.groups ≤ 2 ^ w 1 &&
    (List.range 4).all (fun i => 1 ≤ h.dims.getD i 0 && (w (i + 2) == 32 || h.dims.getD i 0 ≤ 2 ^ w (i + 2))) &&
    2 ≤ h.aff && h.aff ≤ 6 && h.feedslots % 16 == 0 && h.feedslots ≤ 256 && h.feedper ≤ h.feedslots && (h.feedper == 0 || h.feedtab != 0) &&
    allZero b 68 4 && h.doneaddr % 8 == 0 && allZero b 86 2 && fmtOk h.fmtinit && allZero b 92 36)

def LaunchHdr.winBytes (h : LaunchHdr) : Nat := h.vregs8 * 8 * 4 * h.width
/-- Banked store that one block needs. -/
def LaunchHdr.need (h : LaunchHdr) : Nat := h.groups * h.winBytes + h.scratch * 256
/-- Most bytes of windows and scratchpads on one core (R113). -/
def storeCap : Nat := 917504
def LaunchHdr.tooLarge (h : LaunchHdr) : Bool := storeCap < h.need
def LaunchHdr.blocks (h : LaunchHdr) : Nat := h.dims.foldl (· * ·) 1

/-! ## Accesses of the device for a context -/

/-- Core number under which the control complex translates: it caches nothing. -/
def controlCore : Nat := 999

/-- A store of at most one sector through a context's translation. None: it stalls. -/
def ctxStore (s : State) (who : Agent) (ctx va : Nat) (bs : List Byte) : State × Option Bool :=
  let (s, r) := translate s who controlCore ctx va .write
  match r with
  | .stall _ => (s, none)
  | .fault _ => (s, some false)
  | .ok pa ip => (setDirty (devWrite s pa bs) ctx ip, some true)

/-- The completion word (R57). None: its store stalls. -/
def completionWord (s : State) (who : Agent) (ctx addr tag status : Nat) : State × Bool :=
  if addr = 0 ∨ addr % 8 ≠ 0 then (s, true)
  else
    let (s, r) := ctxStore s who ctx addr (bytesOfNat 8 (status * 2 ^ 48 + tag))
    (s, r.isSome)

/-! ## Acceptance (R57, R71, R277) -/

/-- A launch is over, or refused: the packet or node that made it learns of it. -/
def launchOver (s : State) (src : LaunchSrc) (refused : Bool) : State :=
  match src with
  | .packet part qid idx =>
    let done (q : Queue) : Queue := { q with accepted := updWhere (fun a => a.idx == idx) (fun a => { a with done := true }) q.accepted }
    { s with ctl := { s.ctl with queues := updWhere (fun q => q.part == part && q.qid == qid) done s.ctl.queues } }
  | .node run _ =>
    if refused then { s with ctl := { s.ctl with runs := updWhere (fun r => r.id == run) (fun r => { r with status := 4 }) s.ctl.runs } } else s
  | .instr => s

/-- Launches of a context accepted and not completed (R71). -/
def launchCount (s : State) (ctx : Nat) : Nat :=
  (s.ctl.launches.filter (fun l => l.ctx == ctx)).length + (s.ctl.waitingHdr.filter (fun l => l.ctx == ctx)).length +
    (s.ctl.runs.filter (fun r => r.ctx == ctx && r.parent.isNone && r.src == .instr)).length +
    (s.ctl.heldRuns.filter (fun r => r.ctx == ctx)).length

/-- Refuse a launch: its completion word, if it can be written, and the count. False: the store stalls. -/
def refuseLaunch (s : State) (l : Launch) (done tag status : Nat) : State × Bool :=
  let (s, ok) := completionWord s (.control l.id) l.ctx done tag status
  if ok then (launchOver (s.count l.ctx 0x000F 1) l.src true, true) else (s, false)

/-- The pages of a range. -/
def pagesOf (va n : Nat) : List (Nat × Nat) :=
  if n = 0 then [] else (List.range ((va + n - 1) / 131072 - va / 131072 + 1)).map (fun i => (max va ((va / 131072 + i) * 131072), 1))

/-- Read and check the header of a launch that the front end holds; it is accepted or refused, or it
waits (false). -/
def acceptLaunch (s : State) (l : Launch) : State × Bool :=
  let who : Agent := .control l.id
  if l.hdrAddr % 128 ≠ 0 then refuseLaunch s l 0 0 1
  else
    let (s, r) := readVirt s who controlCore l.ctx l.hdrAddr 128 .read
    match r with
    | .inl (.fault _) => refuseLaunch s l 0 0 3
    | .inl _ => (s, false)
    | .inr b =>
      let h := LaunchHdr.ofBytes b
      if hdrBad b then refuseLaunch s l h.doneaddr h.donetag 1
      else if h.tooLarge then refuseLaunch s l h.doneaddr h.donetag 2
      else
        let (s, r) := translateAll who controlCore l.ctx .read (pagesOf h.feedtab (64 * h.feedper * h.blocks)) s
        match r with
        | .inl (.fault _) => refuseLaunch s l h.doneaddr h.donetag 3
        | .inl _ => (s, false)
        | .inr _ =>
          let l := { l with hdr := h, args := if l.args = 0 then h.args else l.args, count := h.blocks }
          ({ s with ctl := { s.ctl with launches := s.ctl.launches ++ [l], pendings := s.ctl.pendings ++ [((s.getCtx l.ctx).part, .launch l.id)] } }, true)

/-- The front end goes through the launches it holds, in order. -/
def frontEnd (s : State) : State :=
  s.ctl.waitingHdr.foldl (fun s l =>
    let (s, ok) := acceptLaunch s l
    if ok then { s with ctl := { s.ctl with waitingHdr := s.ctl.waitingHdr.filter (fun x => x.id != l.id) } } else s) s

/-- Hand a launch to the front end. -/
def handLaunch (s : State) (ctx hdrAddr args : Nat) (src : LaunchSrc) (delay : Nat) : State :=
  let l : Launch := { (default : Launch) with id := s.nextId, ctx := ctx, hdrAddr := hdrAddr, args := args, src := src, notBefore := s.now + delay }
  frontEnd { s with nextId := s.nextId + 1, ctl := { s.ctl with waitingHdr := s.ctl.waitingHdr ++ [l] } }

/-! ## Resources of a core (R60, R67) -/

def groupsOn (s : State) (core : Nat) : List Group := s.groups.filter (fun g => g.core == core && g.resident)
def storeUsed (s : State) (core : Nat) : Nat :=
  ((groupsOn s core).foldl (fun a g => a + g.winBytes) 0) +
    ((s.blocks.filter (fun b => b.core == core && b.placed)).foldl (fun a b => a + b.size) 0)
def freeSlots (s : State) (core : Nat) : List Nat :=
  (List.range 64).filter (fun n => !(groupsOn s core).any (fun g => g.gslot == n))
def feedUsed (s : State) (core : Nat) : Nat := (s.feeds.filter (fun f => f.core == core)).foldl (fun a f => a + f.cap) 0

/-- Room for the feed records of a block (R67, R68). -/
def feedFits (s : State) (ctx core : Nat) (h : LaunchHdr) : Bool :=
  match s.feed? ctx core with
  | some f => f.recs.length + h.feedper ≤ f.cap
  | none => if h.feedslots = 0 then h.feedper == 0 else feedUsed s core + h.feedslots ≤ 512

/-- Cores on which a context's blocks may run: usable, of its partition, of its own clusters (R287, R316). -/
def coreAllowed (s : State) (ctx core : Nat) : Bool :=
  let c := s.getCtx ctx
  let cl := clusterOf core
  core < 288 && s.boot.clusters.getLsbD cl && c.clusters.getLsbD cl && !(s.boot.dieRun.getD (dieOf cl) false == false) &&
    (if c.part = 0 then !s.ctl.partitions.any (fun p => p.part != 0 && p.clusters.getLsbD cl)
     else match s.ctl.partitions.find? (fun p => p.part == c.part) with
       | some p => p.clusters.getLsbD cl
       | none => true)

def fitsCore (s : State) (ctx core : Nat) (h : LaunchHdr) : Bool :=
  coreAllowed s ctx core && h.groups ≤ (freeSlots s core).length && storeUsed s core + h.need ≤ storeCap

/-- A block's coordinates (R58). -/
def blockCoords (h : LaunchHdr) (b : Nat) : List Nat :=
  let d (i : Nat) : Nat := h.dims.getD i 1
  [b % d 0, b / d 0 % d 1, b / (d 0 * d 1) % d 2, b / (d 0 * d 1 * d 2)]

/-- Blocks that agree on every field at and above AFF (R59). -/
def sameAffinity (h : LaunchHdr) (a b : Nat) : Bool :=
  h.aff < 6 && (List.range 4).all (fun i => i + 2 < h.aff || (blockCoords h a).getD i 0 == (blockCoords h b).getD i 0)

/-- A cluster that holds a block of the set, and has a core that fits, comes before any other. -/
def affinityOk (s : State) (l : Launch) (b core : Nat) : Bool :=
  let cls := (s.blocks.filter (fun x => x.launch == l.id && x.placed && sameAffinity l.hdr x.idx b)).map (fun x => clusterOf x.core)
  cls.contains (clusterOf core) ||
    !cls.any (fun c => (List.range 4).any (fun i => fitsCore s l.ctx (4 * c + i) l.hdr && feedFits s l.ctx (4 * c + i) l.hdr))

/-! ## New groups (R58, R61, R122) -/

/-- Work identifier of a lane of a launched block. -/
def launchWid (h : LaunchHdr) (b gidx l : Nat) : DWord :=
  let vals := [l, gidx] ++ blockCoords h b
  BitVec.ofNat 64 ((List.range 6).foldl (fun a f =>
    a + vals.getD f 0 % 2 ^ h.widths.getD f 0 * 2 ^ ((h.widths.take f).foldl (· + ·) 0)) 0)

/-- The lowest area index that no live group of the context holds. -/
def freeArea (s : State) (ctx : Nat) : Option Nat :=
  (List.range ((s.getCtx ctx).spillAreas.toNat / 65536)).find? (fun i =>
    !s.groups.any (fun g => g.ctx == ctx && g.area == some i && g.liveLanes != 0))

/-- A new group with its spill area; its split holds `lanes`. -/
def newGroup (s : State) (ctx launch block gidx core gslot : Nat) (h : LaunchHdr) (hdrAddr args : Nat) (lanes : Mask)
    (wids : SMap DWord) (win : SMap Word) (readyAt acqt : Nat) : State :=
  let c := s.getCtx ctx
  let area := freeArea s ctx
  let size := c.spillAreas.toNat % 65536 * 4096
  let pool := bitsOf c.spillPool.toNat 12 44 * 4096
  let words := [args, args / 2 ^ 32, hdrAddr, hdrAddr / 2 ^ 32].map (fun x => (BitVec.ofNat 32 x : Word))
  let sreg := SMap.setRun 0 ([] : SMap Word) 0 words
  let sp : Split := { (default : Split) with offset := (h.entry : Int), mask := lanes, fmt := h.fmtinit, sfmt := h.fmtinit, age := 0, st := .ready, acqt := acqt }
  let base := match area with | some i => pool + i * size | none => 0
  let g : Group :=
    { (default : Group) with
        gid := s.nextId, ctx := ctx, launch := launch, block := block, gidx := gidx, core := core, quad := gslot % 4, gslot := gslot,
        hdr := h, hdrAddr := hdrAddr, resident := true, readyAt := readyAt, lastIssue := 0, win := win, sreg := sreg, wid := wids,
        exited := ~~~lanes &&& maskBelow h.width, splits := [some sp, none, none, none], births := 1,
        spillBase := base,
        spillLim := if area.isSome then size else 0, area := area, bands := List.replicate 8 none }
  { s with nextId := s.nextId + 1, groups := s.groups ++ [g] }

/-- A context gains its first resident group: its slice starts (R281), it counts as resident (R296). -/
def markResident (s : State) (ctx : Nat) : State :=
  s.updCtx ctx (fun c => { c with run := if c.run = 1 then 2 else c.run, sliceStart := some (c.sliceStart.getD s.now) })

/-- Place a block on a core: its scratchpad and its groups (R60, R61). -/
def placeBlock (s : State) (ctx launch idx core : Nat) (h : LaunchHdr) (mk : State → Nat → Nat → Nat → State) : State :=
  let slots := (freeSlots s core).take h.groups
  let bid := s.nextId
  let b : Block := { (default : Block) with id := bid, ctx := ctx, launch := launch, idx := idx, core := core, hdr := h, seed := bid, placed := true, admitted := bid }
  let s := { s with nextId := bid + 1, blocks := s.blocks ++ [b] }
  let s := (slots.zip (List.range h.groups)).foldl (fun s x => mk s bid x.2 x.1) s
  let gs := (s.groupsOf bid).map (fun g => g.gid)
  let s := s.updBlock bid (fun b => { b with groups := gs })
  markResident { s with coreAdmit := s.coreAdmit.put core (s.now + 1) } ctx

/-! ## Seedbeds (R65) -/

def seedKey? (s : State) (core ctx key : Nat) : Option SeedKey := s.seeds.find? (fun k => k.core == core && k.ctx == ctx && k.key == key)
/-- Thread entries of a context on a core, those of formed groups that wait included. -/
def seedUsed (s : State) (core : Nat) (p : Nat → Bool) : Nat :=
  ((s.seeds.filter (fun k => k.core == core && p k.ctx)).foldl (fun a k => a + k.entries.length) 0) +
    ((s.formed.filter (fun f => f.core == core && p f.ctx)).foldl (fun a f => a + f.entries.length) 0)

/-- Change a key; one left empty closes. -/
def putKey (s : State) (k : SeedKey) : State :=
  let rest := s.seeds.filter (fun x => !(x.core == k.core && x.ctx == k.ctx && x.key == k.key))
  { s with seeds := if k.entries.isEmpty then rest else rest ++ [k] }

/-- Form one group from the oldest n entries. -/
def formGroup (s : State) (k : SeedKey) (n : Nat) : State :=
  let f : Formed := ⟨k.core, k.ctx, k.hdr, k.hdrAddr, k.entries.take n, s.now + 40⟩
  putKey { s with formed := s.formed ++ [f] } { k with entries := k.entries.drop n, start := some s.now }

/-- Append an entry to a key and form a group when it holds a full width. -/
def seedAppend (s : State) (core ctx key : Nat) (h : LaunchHdr) (hdrAddr : Nat) (e : SeedEntry) : State :=
  let k := (seedKey? s core ctx key).getD ⟨core, ctx, key, h, hdrAddr, [], none⟩
  let k := { k with entries := k.entries ++ [e], start := if k.entries.isEmpty then some s.now else k.start }
  if k.hdr.width ≤ k.entries.length then formGroup s k k.hdr.width else putKey s k

/-- The timer of a key has run out. -/
def seedExpire (s : State) (core ctx key : Nat) : State :=
  match seedKey? s core ctx key with
  | none => s
  | some k =>
    match k.start with
    | some t => if t + k.hdr.sbtimer ≤ s.now then formGroup s k k.entries.length else s
    | none => s

/-! ## Admission (R59, R60, R277) -/

/-- Append the prefill records of a block to the feed of its core (R68). None: a page cannot be reached. -/
def prefill (s : State) (l : Launch) (b core : Nat) : State × Bool :=
  let s := match s.feed? l.ctx core with
    | some _ => s
    | none => if l.hdr.feedslots = 0 then s else { s with feeds := s.feeds ++ [⟨l.ctx, core, l.hdr.feedslots, []⟩] }
  (List.range l.hdr.feedper).foldl (fun (x : State × Bool) i =>
    if !x.2 then x
    else
      let (s, r) := readVirt x.1 (.control l.id) controlCore l.ctx (l.hdr.feedtab + 64 * (b * l.hdr.feedper + i)) 64 .read
      match r with
      | .inr bs => (feedAppend s l.ctx core (wordsOfBytes 16 bs), true)
      | .inl _ => (s, false)) (s, true)

/-- Admit the next block of a launch. -/
def admitLaunch (s : State) (l : Launch) (core : Nat) : State :=
  let b := l.next
  let (s', ok) := prefill s l b core
  if !ok then s
  else
    let mk (s : State) (bid gidx gslot : Nat) : State :=
      let wids := (List.range l.hdr.width).foldl (fun (m : SMap DWord) i => m.set 0 i (launchWid l.hdr b gidx i)) ([] : SMap DWord)
      newGroup s l.ctx l.id bid gidx core gslot l.hdr l.hdrAddr l.args (maskBelow l.hdr.width) wids [] (max s.now l.notBefore)
        (if l.src == .instr then s.now else 0)
    let s := placeBlock s' l.ctx l.id b core l.hdr mk
    { s with ctl := { s.ctl with
        launches := updWhere (fun x => x.id == l.id) (fun x => { x with next := x.next + 1, live := x.live + 1 }) s.ctl.launches
        pendings := if l.next + 1 = l.count then s.ctl.pendings.filter (fun p => p.2 != .launch l.id) else s.ctl.pendings } }

/-- Admit a formed group. -/
def admitFormed (s : State) (f : Formed) : State :=
  let n := f.entries.length
  let es := f.entries.zip (List.range n)
  let mk (s : State) (bid gidx gslot : Nat) : State :=
    let wids := es.foldl (fun (m : SMap DWord) x => m.set 0 x.2 x.1.wid) ([] : SMap DWord)
    let win := es.foldl (fun (m : SMap Word) x => (List.range 4).foldl (fun (m : SMap Word) j => m.set 0 (j * f.hdr.width + x.2) (x.1.pay.getD j 0)) m) ([] : SMap Word)
    newGroup s f.ctx 0 bid gidx f.core gslot f.hdr f.hdrAddr f.hdr.args (maskBelow n) wids win (max s.now f.readyAt) 0
  placeBlock { s with formed := s.formed.filter (fun x => x != f) } f.ctx 0 0 f.core f.hdr mk

/-- The cluster number under which the programs and the fork set of an evicted group are kept. -/
def awayCluster (gid : Nat) : Nat := 1000 + gid

/-- Programs of a block that an eviction has saved (R238). -/
def savedProgs (s : State) (blk : Nat) : List Prog := s.mx.progs.filter (fun p => p.block == blk && 1000 ≤ p.cluster)

/-- Banks that go back with a block: those its context held on the cluster it left (R263). -/
def savedBanks (s : State) (b : Block) : List Bank :=
  s.mx.banks.filter (fun k => k.ctx == b.ctx && k.cluster == clusterOf b.core && !k.placed)

/-- The cluster of a core can take a saved block's programs and banks (R238, R263). -/
def clusterTakes (s : State) (b : Block) (core : Nat) : Bool :=
  let cl := clusterOf core
  let bs := savedBanks s b
  let held := s.mx.banks.filter (fun k => k.cluster == cl && k.placed)
  let mine := held.filter (fun k => k.ctx == b.ctx)
  (savedProgs s b.id).all (fun p => (s.prog? cl p.isSeq).isNone) &&
    bs.length + held.length ≤ 128 && (bs.isEmpty || bs.length + mine.length ≤ min 128 ((s.getCtx b.ctx).abquota.toNat % 256)) &&
    bs.all (fun k => !mine.any (fun m => m.num == k.num))

/-- What a restore makes of a parked split: one in WAITM or SLEEP wakes; a sleep whose time is over reports
the lower reason 0 (R217, R73). -/
def wakeRestored (now : Nat) (p : Park) : Park :=
  match p.kind, p.wake with
  | .waitm _, _ => { p with wake := some 2 }
  | .sleep t, none => { p with wake := some (if t ≤ now then 0 else 2) }
  | _, _ => p

/-- A saved group on its new core: no times, no copies, its monitors lost (R214, R217). -/
def Group.restored (g : Group) (core slot now : Nat) (hold : Bool) : Group :=
  let fresh (sp : Split) : Split := { mapPark (wakeRestored now) sp with maxgwct := 0, lastsend := 0, acqt := 0, seen := [] }
  { g with resident := true, halted := hold, core := core, gslot := slot, quad := slot % 4, readyAt := now, wdog := 0,
           splits := g.splits.map (fun o => o.map fresh),
           defs := g.defs.map (fun d => { d with maxgwct := 0, lastsend := 0, acqt := 0, seen := [] }),
           monitors := g.monitors.map (fun e => (e.1, Monitor.lost)) }

/-- Put an evicted block back: its groups take free numbers of the core (R60, R117). While its context is
being restored nothing of it issues (R321). -/
def replaceBlock (s : State) (b : Block) (core : Nat) : State :=
  let slots := freeSlots s core
  let gs := (s.groupsOf b.id).map (fun g => g.gid)
  let cl := clusterOf core
  let hold := (s.getCtx b.ctx).run == 5
  let away := gs.map awayCluster
  let bs := savedBanks s b
  let s := (gs.zip slots).foldl (fun s x => s.updGroup x.1 (fun g => g.restored core x.2 s.now hold)) s
  let prog (p : Prog) : Prog :=
    if p.block == b.id then { p with cluster := cl, stopped := hold, queue := p.queue.map (fun o => { o with waited := 0 }) } else p
  let ps := savedProgs s b.id
  let store (c : CodeStore) : Option CodeStore :=
    if away.contains c.cluster then some { c with cluster := cl }
    else if c.cluster == cl && ps.any (fun p => p.isSeq == c.isSeq) then none else some c
  let fork (f : ForkSet) : ForkSet := if away.contains f.cluster then { f with cluster := cl } else f
  let bank (k : Bank) : Bank := if bs.contains k then { k with cluster := cl, placed := true } else k
  let m : Matrix := { s.mx with progs := s.mx.progs.map prog, stores := s.mx.stores.filterMap store, forks := s.mx.forks.map fork, banks := s.mx.banks.map bank }
  let s := { s with mx := m }
  let s := s.updBlock b.id (fun b => { b with placed := true, core := core, admitted := s.nextId })
  markResident { s with nextId := s.nextId + 1, coreAdmit := s.coreAdmit.put core (s.now + 1),
                        ctl := { s.ctl with pendings := s.ctl.pendings.filter (fun p => p.2 != .block b.id) } } b.ctx

/-- A context whose blocks may be admitted now. -/
def ctxRuns (c : Ctx) : Bool := (c.run == 1 || c.run == 2 || c.run == 5) && c.leave.isNone

/-- The context of an entry whose blocks may be admitted now. -/
def entryCtx (s : State) : Pending → Option Nat
  | .launch id =>
    match s.ctl.launches.find? (fun l => l.id == id) with
    | some l => if ctxRuns (s.getCtx l.ctx) && (s.getCtx l.ctx).run != 5 && l.next < l.count then some l.ctx else none
    | none => none
  | .block id =>
    match s.block? id with
    | some b => if ctxRuns (s.getCtx b.ctx) then some b.ctx else none
    | none => none

/-- Whether the next block of an entry fits a core (R59, R60). -/
def entryFits (s : State) (core : Nat) : Pending → Bool
  | .launch id =>
    match s.ctl.launches.find? (fun l => l.id == id) with
    | some l => fitsCore s l.ctx core l.hdr && feedFits s l.ctx core l.hdr && affinityOk s l l.next core
    | none => false
  | .block id =>
    match s.block? id with
    | some b =>
      let need := (s.groupsOf id).foldl (fun a g => a + g.winBytes) 0 + b.size
      coreAllowed s b.ctx core && clusterTakes s b core && (s.groupsOf id).length ≤ (freeSlots s core).length && storeUsed s core + need ≤ storeCap
    | none => false

def admitEntry (s : State) (core : Nat) : Pending → State
  | .launch id =>
    match s.ctl.launches.find? (fun l => l.id == id) with
    | some l => admitLaunch s l core
    | none => s
  | .block id =>
    match s.block? id with
    | some b => replaceBlock s b core
    | none => s

/-- The first entry of the lists that fits a core. -/
def admitFirst (s : State) (core : Nat) : List (Nat × Pending) → Option State
  | [] => none
  | (_, p) :: ps => if (entryCtx s p).isSome && entryFits s core p then some (admitEntry s core p) else admitFirst s core ps

/-- At most one block in 40 ns on a core; formed groups first. -/
def admitOn (s : State) (core : Nat) : State :=
  let last := s.coreAdmit.get core 0
  if last ≠ 0 ∧ s.now < last - 1 + 40 then s
  else
    match s.formed.find? (fun f => f.core == core && ctxRuns (s.getCtx f.ctx) && (s.getCtx f.ctx).run != 5 && f.hdr.groups == 1 && fitsCore s f.ctx core f.hdr) with
    | some f => admitFormed s f
    | none => (admitFirst s core s.ctl.pendings).getD s

/-! ## Release (R61, R95, R114) -/

/-- Feeds without records of contexts with no resident group on their core go (R67). -/
def releaseFeeds (s : State) (ctx : Nat) : State :=
  { s with feeds := s.feeds.filter (fun f => f.ctx != ctx || !f.recs.isEmpty || (groupsOn s f.core).any (fun g => g.ctx == ctx)) }

/-- A context with no resident group is no longer resident. -/
def unmarkResident (s : State) (ctx : Nat) : State :=
  if s.groups.any (fun g => g.ctx == ctx && g.resident) then s
  else s.updCtx ctx (fun c => { c with run := if c.run = 2 then 1 else c.run, sliceStart := none })

/-- Engine operations or programs still use a block's scratchpad or group. -/
def blockBusy (s : State) (blk : Nat) : Bool :=
  s.mx.ops.any (fun o => o.block == blk && (o.ssp || o.dsp || o.aw.isSome)) || s.mx.progs.any (fun p => p.block == blk)

/-- A group all of whose lanes have exited and whose accesses have completed leaves; with the last one its
block goes. -/
def releaseGroup (s : State) (gid : Nat) : State :=
  match s.group? gid with
  | none => s
  | some g =>
    if g.liveLanes ≠ 0 ∨ !g.queue.isEmpty ∨ !g.loads.isEmpty then s
    else
      let last := ((s.groupsOf g.block).length == 1)
      if last && blockBusy s g.block then s
      else
        let s := { s with groups := s.groups.filter (fun x => x.gid != gid),
                          vis := { s.vis with mons := s.vis.mons.filter (fun e => e.gid != gid), resvs := s.vis.resvs.filter (fun e => e.gid != gid) } }
        let s := s.updBlock g.block (fun b => { b with groups := b.groups.filter (fun x => x != gid) })
        let s := if last then
            { s with blocks := s.blocks.filter (fun b => b.id != g.block),
                     ctl := { s.ctl with launches := updWhere (fun l => l.id == g.launch) (fun l => { l with live := l.live - 1 }) s.ctl.launches } }
          else s
        reclaimBanks (unmarkResident (releaseFeeds s g.ctx) g.ctx) g.ctx (clusterOf g.core)

/-- Every group of every block of a launch has exited: the DONE word, once its stores are visible (R57). -/
def finishLaunch (s : State) (id : Nat) : State :=
  match s.ctl.launches.find? (fun l => l.id == id) with
  | none => s
  | some l =>
    if l.next < l.count ∨ l.live ≠ 0 ∨ s.now < l.gwct then s
    else
      let (s, ok) := completionWord s (.control l.id) l.ctx l.hdr.doneaddr l.hdr.donetag 0
      if ok then launchOver { s with ctl := { s.ctl with launches := s.ctl.launches.filter (fun x => x.id != id) } } l.src false else s

/-! ## The meanings -/

/-- SEEDBED_TIMER (R65). -/
def execSeedbedTimer (core ctx key : Nat) (s : State) : Host.Outcome State Fault Refusal := .next (seedExpire s core ctx key)

/-- BLOCK_ADMIT (R60, R277): the heartwood pair admits a group or block onto a core. -/
def execBlockAdmit (core : Nat) (s : State) : Host.Outcome State Fault Refusal := .next (admitOn (frontEnd s) core)

/-- GROUP_RELEASE (R61, R95). -/
def execGroupRelease (gid : Nat) (s : State) : Host.Outcome State Fault Refusal := .next (releaseGroup s gid)

/-- LAUNCH_COMPLETE (R57). -/
def execLaunchComplete (launch : Nat) (s : State) : Host.Outcome State Fault Refusal := .next (finishLaunch s launch)

end Sys2Proof.Machine
end

