-- ==== Sys2Proof/Machine/Groups.lean ====
section
/-! DEFINITION. Barriers, seedbeds, feeds, launches and sleep as a running group uses them (R62 to R73). -/

namespace Sys2Proof.Machine

/-! ## BAR (R62, R63) -/

/-- Barrier number and group count, if they are uniform and in range. -/
def barArgs (k : SlotCtx) (s : State) (a : Src) (b : Option Src) : Cause ⊕ (Nat × Nat) :=
  let l := (lowestLane k.ex).getD 0
  let bv := (k.rd s a l).toNat
  let nv := match b with | some x => (k.rd s x l).toNat | none => 0
  let same := k.uniform s a && (match b with | some x => k.uniform s x | none => true)
  if !same then .inl .uniformity
  else if 15 < bv ∨ 32 < nv then .inl .bounds
  else .inr (bv, nv)

/-- The executing lanes arrive; completion is tested (R62). -/
def barArrive (k : SlotCtx) (s : State) (b n : Nat) : State :=
  let arrive (x : Barrier) : Barrier :=
    { x with expected := some (x.expected.getD n),
             marks := k.lanes.foldl (fun (m : SMap Nat) l => m.set 0 (k.g.gidx * 128 + l) ((x.ph + 1) % 65536)) x.marks }
  barTest (s.updBlock k.g.block (fun x => { x with bars := x.bars.set default b (arrive (x.bars.get b default)) })) k.g.block b

/-- Some executing lane pends on a barrier. -/
def barPends (k : SlotCtx) (s : State) (b : Nat) : Bool :=
  lanePends (s.getGroup k.gid) ((s.getBlock k.g.block).bars.get b default) k.ex

/-- The wait of BAR.wait and BAR.sync. -/
def barWaitOut (k : SlotCtx) (s : State) (b : Nat) : Out :=
  if barPends k s b then .park s (.bar b) else if loadsDone k then outNone s else .stall s

def barArriveEff (f : VForm) (k : SlotCtx) (s : State) : Out :=
  if k.ex = 0 then outNone s
  else match barArgs k s f.a (some f.b) with
    | .inl c => outTrap s k.ex c
    | .inr (b, n) => if released k s 1 then outNone (barArrive k s b n) else .stall s

def barWaitEff (f : VForm) (k : SlotCtx) (s : State) : Out :=
  match k.park with
  | some p => if parkReady s k.g k.entry k.sp p && loadsDone k then outNone s else .stall s
  | none =>
    if k.ex = 0 then outNone s
    else match barArgs k s f.a none with
      | .inl c => outTrap s k.ex c
      | .inr (b, _) => barWaitOut k s b

def barSyncEff (f : VForm) (k : SlotCtx) (s : State) : Out :=
  match k.park with
  | some p => if parkReady s k.g k.entry k.sp p && loadsDone k then outNone s else .stall s
  | none =>
    if k.ex = 0 then outNone s
    else match barArgs k s f.a (some f.b) with
      | .inl c => outTrap s k.ex c
      | .inr (b, n) => if released k s 1 then barWaitOut k (barArrive k s b n) b else .stall s

/-! ## FEEDPOP and FEEDPUSH (R69, R70) -/

/-- What a pop leaves: status and record in the scalars, status and three words in every latch. -/
def popDone (f : VForm) (k : SlotCtx) (s : State) (st : Word) (rec : List Word) : Out :=
  let ws := (List.range 16).map (fun j => rec.getD j 0)
  let s := if f.dst.sup then s else s.updGroup k.gid (fun g => g.writeWords true f.dst.idx.toNat 0 (st :: ws))
  outAll k s (st :: ws.take 3)

/-- Take the head of the feed, if there is one. -/
def popNow (m : PopKind) (f : VForm) (k : SlotCtx) (s : State) (parked : Bool) : Out :=
  match s.feed? k.ctx k.core with
  | none => popDone f k s 2 []
  | some q =>
    match q.recs with
    | r :: rs => popDone f k (s.updFeed k.ctx k.core (fun q => { q with recs := rs })) 1 r
    | [] => match m with
      | .nonBlocking => popDone f k s 0 []
      | .blocking => if parked then .stall s else .park s .feedpop

def feedpopEff (m : PopKind) (f : VForm) (k : SlotCtx) (s : State) : Out :=
  if !f.dst.sup && 111 < f.dst.idx.toNat then outTrap s k.sp.mask .bounds
  else match k.park with
    | some p => if p.wake == some 1 then popDone f k s 1 p.data else popNow m f k s true
    | none => if k.ex = 0 then outNone s else popNow m f k s false

def feedpushEff (f : VForm) (k : SlotCtx) (s : State) : Out :=
  let a := match f.a with | .scalar i => i.toNat | _ => 0
  if 112 < a then outTrap s k.sp.mask .bounds
  else if k.ex = 0 then outNone s
  else if !k.uniform s f.b then outTrap s k.ex .uniformity
  else
    let sel := (k.rd s f.b ((lowestLane k.ex).getD 0)).toNat
    if 288 ≤ sel ∧ sel ≠ 0xFFFFFFFF then outTrap s k.ex .bounds
    else
      let core := if sel = 0xFFFFFFFF then k.core else sel
      match s.feed? k.ctx core with
      | none => outAll k s [2]
      | some q =>
        if q.cap ≤ q.recs.length then outAll k s [0]
        else outAll k (feedAppend s k.ctx core ((List.range 16).map (fun j => k.sword (a + j)))) [1]

/-! ## SPAWN (R65, R66) -/

/-- A trap on every executing lane, with an address. -/
def outFault (s : State) (k : SlotCtx) (f : LaneFault) : Out := .trap s [] ⟨0, k.lanes.map (fun l => (l, f))⟩

/-- Whether a header may open a key. -/
def seedHdrOk (b : List Byte) : Bool :=
  !hdrBad b && (LaunchHdr.ofBytes b).groups == 1 && !(LaunchHdr.ofBytes b).tooLarge

def spawnEff (m : SpawnKind) (f : XForm) (k : SlotCtx) (s : State) : Out :=
  match k.lanes with
  | [] => outNone s
  | l0 :: _ =>
    let h := k.rd64 s f.a l0
    if h % 128 ≠ 0 then outFault s k ⟨.misaligned, h, 0⟩
    else if 2 ^ 56 ≤ h then outFault s k ⟨.bounds, h, 0⟩
    else
      let (s, r) := readVirt s k.who k.core k.ctx h 128 .read
      match r with
      | .inl (.fault x) => outFault s k x
      | .inl _ => .stall s
      | .inr b =>
        let hd := LaunchHdr.ofBytes b
        let key := hd.codeBase + hd.entry
        let known := seedKey? s k.core k.ctx key
        if known.isNone && !seedHdrOk b then outFault s k (handleFault 1)
        else
          let n := k.lanes.length
          let mine := seedUsed s k.core (fun c => c == k.ctx)
          let all := seedUsed s k.core (fun _ => true)
          let open' := known.isSome || (s.seeds.filter (fun x => x.core == k.core && x.ctx == k.ctx)).length < 64
          if 2048 < mine + n || 4096 < all + n || !open' then .stall s
          else
            let ent (l : Nat) : SeedEntry :=
              ⟨BitVec.ofNat 64 (k.rd64 s f.b l), match m with | .plain => [0, 0, 0, 0] | .payload => k.rdWords s f.c l 4⟩
            let s' := k.lanes.foldl (fun s' l => seedAppend s' k.core k.ctx key hd h (ent l)) s
            match seedKey? s' k.core k.ctx key with
            | some x => outNone (if x.hdr.sbtimer = 0 then formGroup s' x x.entries.length else s')
            | none => outNone s'

/-! ## LAUNCH (R71) -/

/-- The operand pairs of LAUNCH, once it may be handed over. -/
def launchEff (f : XForm) (align : Nat) (hand : State → Nat → Nat → State) (k : SlotCtx) (s : State) : Out :=
  let h := k.rd64 s f.a 0
  if k.ex = 0 then outNone s
  else if h % align ≠ 0 then outFault s k ⟨.misaligned, h, 0⟩
  else if 1024 ≤ launchCount s k.ctx then .stall s
  else if !released k s 5 then .stall s
  else outNone (hand s h (k.rd64 s f.b 0))

/-! ## WID and SLEEP (R72, R73) -/

def widEff (f : VForm) (k : SlotCtx) (s : State) : Out :=
  let sel (l : Nat) : Nat := (k.rd s f.a l).toNat
  if k.lanes.any (fun l => sel l == 6) && !dstIn k.g.vregs 128 f.dst 2 then outTrap s k.sp.mask .bounds
  else .done s (k.lanes.map (fun l =>
    let w := k.g.wid.get l 0
    (l, if sel l ≤ 5 then [BitVec.ofNat 32 (widField k.g.hdr.widths w (sel l))]
        else if sel l = 6 then [w.extractLsb' 0 32, w.extractLsb' 32 32] else [0])))

def sleepEff (f : VForm) (k : SlotCtx) (s : State) : Out :=
  match k.park with
  | some p =>
    match p.wake, p.kind with
    | some w, _ => outAll k s [BitVec.ofNat 32 w]
    | none, .sleep t => if t ≤ s.now then outAll k s [0] else .stall s
    | none, _ => .stall s
  | none =>
    if k.ex = 0 then outNone s
    else
      let d := k.lanes.foldl (fun a l => max a (k.rd s f.a l).toNat) 0
      if d = 0 then outAll k s [0] else .park s (.sleep (s.now + d))

/-- A split asleep until a time wakes once that time has come. -/
def wakeSleepTime (now : Nat) (p : Park) : Park :=
  match p.kind, p.wake with
  | .sleep t, none => if t ≤ now then { p with wake := some 0 } else p
  | _, _ => p

/-! ## The meanings -/

/-- BAR.arrive (R63). -/
def execBarArrive (f : VForm) (s : State) : Host.Outcome State Fault Refusal :=
  slotStep (.barArrive f) (barArriveEff f) s
/-- BAR.wait (R63). -/
def execBarWait (f : VForm) (s : State) : Host.Outcome State Fault Refusal :=
  slotStep (.barWait f) (barWaitEff f) s
/-- BAR.sync (R63). -/
def execBarSync (f : VForm) (s : State) : Host.Outcome State Fault Refusal :=
  slotStep (.barSync f) (barSyncEff f) s
/-- FEEDPOP (R69). -/
def execFeedpop (m : PopKind) (f : VForm) (s : State) : Host.Outcome State Fault Refusal :=
  slotStep (.feedpop m f) (feedpopEff m f) s
/-- FEEDPUSH (R70). -/
def execFeedpush (f : VForm) (s : State) : Host.Outcome State Fault Refusal :=
  slotStep (.feedpush f) (feedpushEff f) s
/-- SPAWN (R66). -/
def execSpawn (m : SpawnKind) (f : XForm) (s : State) : Host.Outcome State Fault Refusal :=
  slotStep (.spawn m f) (spawnEff m f) s
/-- LAUNCH.0 (R71). -/
def execLaunch (f : XForm) (s : State) : Host.Outcome State Fault Refusal :=
  slotStep (.launch f) (fun k s => launchEff f 128 (fun s h x => handLaunch s k.ctx h x .instr 180) k s) s
/-- WID (R72). -/
def execWid (f : VForm) (s : State) : Host.Outcome State Fault Refusal :=
  slotStep (.wid f) (widEff f) s
/-- SLEEP (R73). -/
def execSleep (f : VForm) (s : State) : Host.Outcome State Fault Refusal :=
  slotStep (.sleep f) (sleepEff f) s
/-- SLEEP_TIMEOUT (R73). -/
def execSleepTimeout (r : SplitRef) (s : State) : Host.Outcome State Fault Refusal :=
  .next (wakePark s r.gid r.entry (wakeSleepTime s.now))

end Sys2Proof.Machine
end

