-- ==== Sys2Proof/Machine/Engine.lean ====
section
/-! DEFINITION. Copy engines, futures, arrival words, FORK, RDV and collectives (R208, R209, R220 to R240). -/

namespace Sys2Proof.Machine

/-! ## Packets into outboxes (R211, R318, R330) -/

def State.path? (s : State) (job dst vc : Nat) : Option Path :=
  s.fab.paths.find? (fun p => p.job == job && p.dst == dst && p.vc == vc)

def State.updPort (s : State) (n : Nat) (f : Port → Port) : State :=
  { s with fab := { s.fab with ports := updWhere (fun p => p.port == n) f s.fab.ports } }

/-- The one-flit report of a discarded packet, on virtual channel 3 (R318). -/
def discardReport (s : State) (port : Nat) (p : Packet) : State :=
  s.send (.packet port ⟨p.dst, p.src, 0, windowOf s.now, 3, 2, p.seq, 0, []⟩)

/-- The number of dropped packets of a job's context. -/
def countDropped (s : State) (job : Nat) : State :=
  match s.ctxs.find? (fun c => c.gang && c.jobTag == job) with
  | some c => s.count c.num 0x000C 1
  | none => s

/-- Put a packet into the outbox of its path's port; without a path it is discarded (R330). -/
def toOutbox (s : State) (op ctx dst vc kind addr : Nat) (payload : List Byte) : State :=
  let c := s.getCtx ctx
  let p : Packet := ⟨dst, c.gangPos, c.jobTag, 0, vc, kind, 0, addr, payload⟩
  match (s.path? c.jobTag dst vc).bind (fun x => x.ports.head?) with
  | none => discardReport (s.count ctx 0x000C 1) 0 p
  | some n =>
    (s.updPort n (fun q => { q with outbox := q.outbox ++ [⟨op, p, false⟩] })).updOp op (fun o => { o with outstanding := o.outstanding + 1 })

/-! ## Operations -/

def EOp.agent (o : EOp) : Agent := .op o.id
def State.opOf (s : State) (r : OpRef) : Option EOp :=
  s.mx.ops.find? (fun o => o.cluster == r.cluster && o.ctx == r.ctx && o.serial == r.serial)

/-- Host physical address of a host virtual address under a PASID (R291). -/
def atsAddr (pasid va : Nat) : Option Nat := (Config.ats pasid (va / 4096)).map (fun p => hostBase + p % 2 ^ 39 * 4096 + va % 4096)

def State.queue? (s : State) (part qid : Nat) : Option Queue := s.ctl.queues.find? (fun q => q.part == part && q.qid == qid)
def State.updQueue (s : State) (part qid : Nat) (f : Queue → Queue) : State :=
  { s with ctl := { s.ctl with queues := updWhere (fun q => q.part == part && q.qid == qid) f s.ctl.queues } }

/-- PASID of a COPY packet's host queue. -/
def EOp.pasid (o : EOp) (s : State) : Option Nat :=
  match o.kind with
  | .packet part qid _ => (s.queue? part qid).bind (fun q => if q.pasidv then some q.pasid else none)
  | _ => none

/-- A host access under a PASID: it waits for a translation that the host has not yet answered; under a draining
PASID there is none (R291). -/
def atsXlate (s : State) (pasid va : Nat) : State × Tr :=
  let e := (pasid, va / 4096)
  if s.ctl.draining.any (fun d => d.1 == pasid) then (s, .fault ⟨.pageFault, va, 0⟩)
  else if s.ctl.atc.contains e then
    (s, match atsAddr pasid va with | some pa => .ok pa 0 | none => .fault ⟨.pageFault, va, 0⟩)
  else if s.ctl.atsReqs.contains e then (s, .stall (va / 131072))
  else ({ s with ctl := { s.ctl with atsReqs := s.ctl.atsReqs ++ [e] } }, .stall (va / 131072))

/-- An operation's memory access. -/
def opXlate (s : State) (o : EOp) (va : Nat) (acc : Access) : State × Tr :=
  match o.pasid s with
  | some p => atsXlate s p va
  | none => translate s o.agent (engCore o.cluster) o.ctx va acc

def unown (s : State) (op : Nat) (sector? : Option Nat) : State :=
  { s with vis := { s.vis with owned := s.vis.owned.filter (fun w => !(w.op == op && (match sector? with | some x => w.sector == x | none => true))) } }

/-- No operation issued before owns the sector (R208). -/
def Vis.clearBefore (v : Vis) (op sector : Nat) : Bool := v.owned.all (fun w => !(w.sector == sector && w.op < op))

/-- The operation enters the ownership table of a sector. -/
def ownSector (s : State) (op sector : Nat) : State :=
  if s.vis.owned.any (fun w => w.op == op && w.sector == sector) then s
  else { s with vis := { s.vis with owned := s.vis.owned ++ [⟨op, sector⟩] } }

/-- An operation ends (R209, R221): its entries clear, its token takes its status; a program or a queue's
packet that issued it learns of it. -/
def finishOp (s : State) (o : EOp) (st : TStat) (cause addr : Nat) : State :=
  let s := { s with mx := { s.mx with ops := s.mx.ops.filter (fun x => x.id != o.id) } }
  let s := unown s o.id none
  let s := { s with vis := { s.vis with stalls := s.vis.stalls.filter (fun x => x.who != o.agent) } }
  let s := match o.kind with
    | .coll c => { s with fab := { s.fab with coll := s.fab.coll.filter (fun m => !(m.job == (s.getCtx o.ctx).jobTag && m.tag == c.tag)) } }
    | .packet part qid idx => s.updQueue part qid (fun q =>
        { q with accepted := updWhere (fun a => a.idx == idx) (fun a => { a with done := true }) q.accepted, gwct := max q.gwct o.gwct })
    | .copy => s
  let s := if st == .done then s else
    { s with fab := { s.fab with ports := s.fab.ports.map (fun p => { p with outbox := p.outbox.filter (fun x => x.op != o.id) }) } }
  let s := endToken s o.ctx o.cluster o.serial st cause addr o.gwct o.lastsend
  if o.prog then
    match s.mx.progs.find? (fun p => p.ops.contains o.id) with
    | none => s
    | some p =>
      let s := s.updProg p.cluster p.isSeq (fun p => { p with ops := p.ops.filter (fun x => x != o.id), gwct := max p.gwct o.gwct, lastsend := max p.lastsend o.lastsend })
      reapProg s p.cluster p.isSeq
  else s

/-! ## The pieces of a copy (R208, R228, R230) -/

/-- Cut a row so that no part crosses a sector at either end. -/
def cutRow : Nat → Nat → Nat → Nat → List Part
  | 0, _, _, _ => []
  | fuel + 1, src, dst, n =>
    let k := min n (min (64 - dst % 64) (64 - src % 64))
    if n = 0 then [] else ⟨src, dst, k⟩ :: cutRow fuel (src + k) (dst + k) (n - k)

def rowParts (r : Nat × Nat) (n : Nat) : List Part := cutRow (n / 32 + 4) r.1 r.2 n

/-- One piece for each unit of `size` destination bytes, parts in row order. -/
def groupParts (size : Nat) (ps : List Part) : List Piece :=
  let m := ps.foldl (fun (m : SMap (List Part)) p => m.put (p.dst / size) (((m.get? (p.dst / size)).getD []) ++ [p])) []
  m.map (fun e => ⟨e.2, [], .todo⟩)

/-- The next part of a piece to be read. -/
def nextPart : List Part → Nat → Option Part
  | [], _ => none
  | p :: ps, n => if n < p.n then some p else nextPart ps (n - p.n)

def partBytes (ps : List Part) : Nat := ps.foldl (fun a p => a + p.n) 0

/-! ## Collectives (R239, R240) -/

def collElem (ty : Nat) : Nat := if ty = 1 ∨ ty = 2 then 2 else 4
def CollInfo.es (c : CollInfo) : Nat := collElem c.ty
def CollInfo.n (c : CollInfo) : Nat := c.members.length

/-- SRC bytes of a rank. -/
def CollInfo.srcLen (c : CollInfo) (rank : Nat) : Nat :=
  match c.op with
  | .allReduceSum | .allGather => c.count * c.es
  | .reduceScatter => c.n * c.count * c.es
  | .broadcast => if rank = c.root then c.count * c.es else 0

def CollInfo.dstLen (c : CollInfo) : Nat :=
  match c.op with
  | .allGather => c.n * c.count * c.es
  | _ => c.count * c.es

def collOpNum : CollOp → Nat
  | .allReduceSum => 0
  | .allGather => 1
  | .reduceScatter => 2
  | .broadcast => 3

/-- What a member's packets say of its operation (assumption 41): op, TYPE, N, ROOT, COUNT. -/
def CollInfo.head (c : CollInfo) : List Byte :=
  bytesOfNat 1 (collOpNum c.op) ++ bytesOfNat 1 c.ty ++ bytesOfNat 2 c.n ++ bytesOfNat 4 c.root ++ bytesOfNat 4 c.count

def CollInfo.body (c : CollInfo) (kind off : Nat) (bs : List Byte) : List Byte :=
  c.head ++ bytesOfNat 2 c.rank ++ bytesOfNat 2 kind ++ bytesOfNat 4 off ++ bs

def CollMsg.rank (m : CollMsg) : Nat := leAt m.body 12 2
/-- 0 an announcement, 1 data, 2 a cancellation. -/
def CollMsg.kind (m : CollMsg) : Nat := leAt m.body 14 2

/-- Messages of a collective from its other members. -/
def collMsgs (s : State) (o : EOp) (c : CollInfo) : List CollMsg :=
  s.fab.coll.filter (fun m => m.job == (s.getCtx o.ctx).jobTag && m.tag == c.tag)

def collDisagree (s : State) (o : EOp) (c : CollInfo) : Bool := (collMsgs s o c).any (fun m => m.body.take 12 != c.head)

/-- The source bytes of a rank that have come in. -/
def collBytes (s : State) (o : EOp) (c : CollInfo) (rank : Nat) : SMap Byte :=
  if rank = c.rank then o.contrib
  else ((collMsgs s o c).filter (fun m => m.rank == rank && m.kind == 1)).foldl
    (fun d m => (bytesAt (leAt m.body 16 4) (m.body.drop 20)).foldl (fun d e => SMap.put d e.1 e.2) d) ([] : SMap Byte)

/-- Every member has issued its operation. -/
def collAll (s : State) (o : EOp) (c : CollInfo) : Bool :=
  (List.range c.n).all (fun r => r == c.rank || (collMsgs s o c).any (fun m => m.rank == r))

/-- Every byte of every member has come in. -/
def collReady (s : State) (o : EOp) (c : CollInfo) : Bool :=
  !collDisagree s o c && collAll s o c && (List.range c.n).all (fun r => (collBytes s o c r).length == c.srcLen r)

/-- A sum in ascending rank order. -/
def collSum (ty : Nat) (xs : List Nat) : Nat :=
  let half (t : FFmt) : Nat :=
    let ws := xs.map (fun x => BitVec.ofNat 32 (convert t f32 x 0).bits)
    (convert f32 t (ws.tail.foldl faddWord (ws.headD 0)).toNat 0).bits
  match ty with
  | 0 => (xs.tail.foldl (fun a x => faddWord a (BitVec.ofNat 32 x)) (BitVec.ofNat 32 (xs.headD 0))).toNat
  | 1 => half bf16
  | 2 => half f16
  | _ => (xs.foldl (fun a x => a + BitVec.ofNat 32 x) (0 : Word)).toNat

/-- Element j of DST. -/
def collElemAt (c : CollInfo) (bytes : Nat → SMap Byte) (j : Nat) : Nat :=
  let el (r i : Nat) : Nat := natOfBytes ((bytes r).getRun (i * c.es) c.es 0)
  match c.op with
  | .allReduceSum => collSum c.ty ((List.range c.n).map (fun r => el r j))
  | .allGather => el (j / c.count) (j % c.count)
  | .reduceScatter => collSum c.ty ((List.range c.n).map (fun r => el r (c.rank * c.count + j)))
  | .broadcast => el c.root j

/-- The bytes of one piece of DST; its parts name offsets in the result. -/
def collData (c : CollInfo) (bytes : Nat → SMap Byte) (ps : List Part) : List (Nat × Byte) :=
  ps.flatMap (fun p => (List.range p.n).map (fun i =>
    let off := p.src + i
    (p.dst + i, BitVec.ofNat 8 (collElemAt c bytes (off / c.es) / 256 ^ (off % c.es)))))

/-- The runs of SRC that a member sends, one sector each. -/
def CollInfo.runs (c : CollInfo) : List (Nat × Nat) := chunks (c.srcLen c.rank / 64 + 2) c.src (c.srcLen c.rank)

/-- A packet to every other member. -/
def collSend (s : State) (o : EOp) (c : CollInfo) (body : List Byte) : State :=
  (List.range c.n).foldl (fun s r => if r = c.rank then s else toOutbox s o.id o.ctx (c.members.getD r 0) c.vc 1 c.tag body) s

/-! ## Running operations (R208, R221, R230) -/

/-- Operations of a cluster start in issue order (R220). -/
def mayStart (s : State) (o : EOp) : Bool :=
  o.started || s.mx.ops.all (fun x => x.cluster != o.cluster || o.id ≤ x.id || x.started)

/-- A sector moved to or from a home is charged; a byte counts where it arrives (R279, R295). -/
def countMoved (s : State) (ctx n : Nat) : State := s.count ctx 0x0003 n

def updPiece (s : State) (op n : Nat) (f : Piece → Piece) : State :=
  s.updOp op (fun o => { o with pieces := (o.pieces.zip (List.range o.pieces.length)).map (fun x => if x.2 = n then f x.1 else x.1) })

/-- Read the next part of a piece: from scratchpad, or at its home. -/
def readPart (s : State) (o : EOp) (n : Nat) (pc : Piece) (p : Part) : State :=
  let got (s : State) (bs : List Byte) : State :=
    let pc' : Piece := { pc with data := pc.data ++ bytesAt p.dst bs }
    updPiece s o.id n (fun _ => { pc' with st := if (nextPart pc'.parts pc'.data.length).isNone then .read else .todo })
  if o.ssp then got s ((s.getBlock o.block).bytes p.src p.n)
  else
    let (s, r) := opXlate s o p.src .read
    match r with
    | .ok pa _ => if s.vis.clearBefore o.id (sectorOf pa) then got (s.charge o.ctx 1 1) (s.rdBytes pa p.n) else s
    | _ => s

/-- A collective's reads: its announcement, a run of SRC, or a piece of DST once all have come in. -/
def collRead (s : State) (o : EOp) (c : CollInfo) (n : Nat) : State :=
  let m := o.pieces.length
  let mark (s : State) : State := s.updOp o.id (fun o => { o with sent := (n - m) :: o.sent })
  if n < m then
    match o.pieces[n]? with
    | some pc =>
      if pc.st == .todo && collReady s o c then updPiece s o.id n (fun pc => { pc with data := collData c (collBytes s o c) pc.parts, st := .read }) else s
    | none => s
  else if o.sent.contains (n - m) then s
  else if n = m then collSend (mark s) o c (c.body 0 0 [])
  else
    match c.runs[n - m - 1]? with
    | none => s
    | some (va, len) =>
      let (s, r) := opXlate s o va .read
      match r with
      | .ok pa _ =>
        if s.vis.clearBefore o.id (sectorOf pa) then
          let bs := s.rdBytes pa len
          let s := (mark (s.charge o.ctx 1 1)).updOp o.id (fun o => { o with contrib := (bytesAt (va - c.src) bs).foldl (fun d e => SMap.put d e.1 e.2) o.contrib })
          collSend s o c (c.body 1 (va - c.src) bs)
        else s
      | _ => s

def opRead (s : State) (o : EOp) (n : Nat) : State :=
  if !mayStart s o || o.stopped then s
  else
    let s := s.updOp o.id (fun o => { o with started := true })
    match o.kind with
    | .coll c => collRead s o c n
    | _ =>
      match o.pieces[n]? with
      | none => s
      | some pc =>
        match pc.st, nextPart pc.parts pc.data.length with
        | .todo, some p => readPart s o n pc p
        | _, _ => s

/-- A piece that has been read commits at its sector's home, or goes to its outbox (R208, R211). -/
def opCommit (s : State) (o : EOp) (n : Nat) : State :=
  match o.pieces[n]? with
  | none => s
  | some pc =>
    if pc.st != .read || o.dsp || o.stopped then s
    else
      let done (s : State) : State := updPiece s o.id n (fun p => { p with st := .done, data := [] })
      let first := (pc.parts.headD ⟨0, 0, 0⟩).dst
      match o.rmt with
      | some (pos, vc) => toOutbox (done (countMoved s o.ctx (partBytes pc.parts))) o.id o.ctx pos vc 0 first (pc.data.map (fun e => e.2))
      | none =>
        let base := first / 64 * 64
        let (s, r) := opXlate s o base .write
        match r with
        | .ok pa ip =>
          let sec := sectorOf pa
          if !s.vis.clearBefore o.id sec then ownSector s o.id sec
          else
            let g := s.gwctOf sec
            let d := pc.data.map (fun e => (pa + (e.1 - base), e.2))
            let s := homeCommit s none none sec d
            let s := if (o.pasid s).isSome then s else setDirty s o.ctx ip
            let s := unown ((countMoved s o.ctx (partBytes pc.parts)).charge o.ctx 1 1) o.id (some sec)
            done (s.updOp o.id (fun o => { o with gwct := max o.gwct g }))
        | _ => s

/-- A piece lands in scratchpad; then its bytes are added to the arrival word (R230). -/
def opLand (s : State) (o : EOp) (n : Nat) : State :=
  match o.pieces[n]? with
  | none => s
  | some pc =>
    if pc.st != .read || !o.dsp || o.stopped then s
    else
      let s := pc.data.foldl (fun s e => s.updBlock o.block (fun b => { b with data := b.data.put e.1 (some e.2) })) s
      let s := awaitTest (countMoved s o.ctx (partBytes pc.parts)) o.block
      let landed := (pc.data.foldl (fun (m : SMap Unit) e => m.put e.1 ()) []).length
      let s := match o.aw with | some a => arrivalAdd s o.block a landed | none => s
      updPiece s o.id n (fun p => { p with st := .done, data := [] })

/-- Everything has landed or committed, and every packet has left (R209, R230). -/
def opComplete (s : State) (o : EOp) : Bool :=
  o.outstanding == 0 && o.pieces.all (fun p => p.st == .done) &&
  (match o.kind with
   | .coll c => collAll s o c && !collDisagree s o c && (List.range (c.runs.length + 1)).all (fun i => o.sent.contains i)
   | _ => true)

/-- A translation that fails for good: its cause and address. -/
def faultAt (s : State) (o : EOp) (va : Nat) (acc : Access) : Option LaneFault :=
  match o.pasid s with
  | some p => (match (atsXlate s p va).2 with | .fault f => some f | _ => none)
  | none => match (translateRaw s (engCore o.cluster) o.ctx va acc).2 with
    | .fault f => some { f with addr := va }
    | _ => none

/-- The accesses that a piece still has to make. -/
def pieceFault (s : State) (o : EOp) (n : Nat) : Option LaneFault :=
  let src := match o.kind with
    | .coll c => (c.runs[n - o.pieces.length - 1]?).bind (fun x => if o.pieces.length < n then faultAt s o x.1 .read else none)
    | _ => (o.pieces[n]?).bind (fun pc => if o.ssp then none else (nextPart pc.parts pc.data.length).bind (fun p => faultAt s o p.src .read))
  let dst := (o.pieces[n]?).bind (fun pc =>
    if o.dsp || o.rmt.isSome || pc.st == .done then none else faultAt s o ((pc.parts.headD ⟨0, 0, 0⟩).dst / 64 * 64) .write)
  src.orElse (fun _ => dst)

def opFault (s : State) (o : EOp) (why : EngineFault) : State :=
  let f : Option (Nat × Nat) := match why with
    | .translation n => (pieceFault s o n).map (fun f => (f.cause.code, f.addr))
    | .ecc a => some (Cause.ecc.code, a)
    | .disagree => match o.kind with
      | .coll c => if collDisagree s o c then some (Cause.bounds.code, 0) else none
      | _ => none
  match f with
  | none => s
  | some (c, a) => finishOp (if c = 0x04 then s.count o.ctx 0x000B 1 else s) o .faulted c a

/-- Cancel an operation: the other members of a collective are told (R227, R240). -/
def cancelOp (s : State) (o : EOp) (tell : Bool) : State :=
  let s := finishOp s o .cancelled 0 0
  match o.kind with
  | .coll c => if tell then collSend s { o with id := 0 } c (c.body 2 0 []) else s
  | _ => s

/-! ## Issue (R220, R221, R225, R230) -/

/-- Lanes of a trap that an instruction's own index breaks. -/
def SlotCtx.whole (k : SlotCtx) : Mask := if k.isProg then 1 else k.sp.mask
def SlotCtx.block (k : SlotCtx) : Nat := if k.isProg then k.p.block else k.g.block

/-- Room in the queue, and no pending token in the F register to be written. -/
def opRoom (k : SlotCtx) (s : State) (f : Nat) : Bool :=
  (s.mx.ops.filter (fun o => o.cluster == k.cluster)).length < 256 &&
  (if k.isProg then k.p.ops.length < 16
   else tokenStatus s k.ctx (k.g.freg f) != 1 && (k.g.queueOf k.sp.mask).isEmpty)

/-- Claim the destination sectors of an operation that its context's tables reach now. -/
def claimSectors (s : State) (o : EOp) : State :=
  if o.dsp || o.rmt.isSome then s
  else o.pieces.foldl (fun s pc =>
    let base := (pc.parts.headD ⟨0, 0, 0⟩).dst / 64 * 64
    match o.pasid s with
    | some p => (match atsAddr p base with | some pa => ownSector s o.id (sectorOf pa) | none => s)
    | none =>
      let (s, r) := translateRaw s (engCore o.cluster) o.ctx base .write
      match r with
      | .ok pa _ => ownSector s o.id (sectorOf pa)
      | _ => s) s

/-- Write a token into an F register; tokens that no register holds any more go (R224). -/
def setToken (s : State) (ctx gid f : Nat) (t : Word) : State := retireTokens (s.updGroup gid (fun g => g.setF f t)) ctx

/-- Create an operation: its token, its entries, its F register or its program's list. -/
def createOp (k : SlotCtx) (s : State) (f : Nat) (mk : Nat → Nat → EOp) : Out :=
  let (s, n) := newToken s k.ctx k.cluster
  let id := s.nextId
  let o := mk id n
  let t := tokenWord k.cluster n
  let s := { s with nextId := id + 1, mx := { s.mx with ops := s.mx.ops ++ [o] } }
  let s := claimSectors s o
  let s := if k.isProg then s.updProg k.cluster false (fun p => { p with ops := p.ops ++ [id] }) else setToken s k.ctx k.gid f t
  let s := match o.kind with
    | .coll c => if (collMsgs s o c).any (fun m => m.kind == 2) then cancelOp s o false else s
    | _ => if o.pieces.isEmpty then finishOp s o .done 0 0 else s
  outAll k s [t]

/-- The two addresses of row k (R228); mode 0 CPY, 1 GATH, 2 SCAT. -/
def rowAddr (mode src dst bytes : Nat) (a b : Int) (idx : Nat → Nat) (k : Nat) : Int × Int :=
  match mode with
  | 0 => (src + k * a, dst + k * b)
  | 1 => (src + idx k * a, dst + k * bytes)
  | _ => (src + k * bytes, dst + idx k * a)

/-- Every byte of a row lies in its space. -/
def rowIn (scr : Bool) (size : Nat) (x : Int) (n : Nat) : Bool := 0 ≤ x && x + n ≤ (if scr then (size : Int) else 2 ^ 56)

def copyEff (mode : Nat) (f : XForm) (k : SlotCtx) (s : State) : Out :=
  let a := match f.a with | .scalar i => i.toNat | _ => 0
  let ssp := f.flags.getLsbD 0
  let dsp := f.flags.getLsbD 1
  let aw := f.flags.getLsbD 2
  let rmt := f.flags.getLsbD 3
  let freg := (f.bank.extractLsb' 8 4).toNat
  let d (i : Nat) : Nat := (k.sword (a + i)).toNat
  let b := s.getBlock k.block
  let ctx := s.getCtx k.ctx
  let (bytes, rows, dpos) := (d 4, d 5 % 65536, bitsOf (d 5) 16 12)
  let src := d 0 + d 1 * 2 ^ 32
  let dst := d 2 + d 3 * 2 ^ 32
  let off := (k.rd s f.b ((lowestLane k.ex).getD 0)).toNat
  if (if k.isProg then 24 else 120) < a then outTrap s k.whole .bounds
  else if k.ex = 0 then outNone s
  else if aw && !k.uniform s f.b then outTrap s k.ex .uniformity
  else if (if ssp then d 1 ≠ 0 else d 1 / 2 ^ 24 ≠ 0) ∨ (if dsp then d 3 ≠ 0 else d 3 / 2 ^ 24 ≠ 0) ∨ bytes / 2 ^ 24 ≠ 0 ∨ d 5 / 2 ^ 28 ≠ 0 ∨
      (!rmt && dpos ≠ 0) ∨ (rmt && (dsp || aw)) ∨ (aw && !dsp) then outTrap s k.ex .reservedField
  else if rmt && (!ctx.gang || ctx.gangSize ≤ dpos) then outTrap s k.ex .bounds
  else if mode ≠ 0 ∧ d 7 % 4 ≠ 0 then outTrap s k.ex .misaligned
  else if mode ≠ 0 ∧ d 7 + 4 * rows > b.size then outTrap s k.ex .bounds
  else
    let idx (i : Nat) : Nat := b.nat (d 7 + 4 * i) 4
    let rs := if bytes = 0 then [] else (List.range rows).map (rowAddr mode src dst bytes (k.sword (a + 6)).toInt (k.sword (a + 7)).toInt idx)
    if rs.any (fun r => !rowIn ssp b.size r.1 bytes || !rowIn dsp b.size r.2 bytes) then outTrap s k.ex .bounds
    else if aw ∧ off % 8 ≠ 0 then outTrap s k.ex .misaligned
    else if aw ∧ off + 8 > b.size then outTrap s k.ex .bounds
    else if !opRoom k s freg then .stall s
    else
      let ps := rs.map (fun r => rowParts (r.1.toNat, r.2.toNat) bytes)
      let pieces := if rmt then ps.flatMap (groupParts 4096) else groupParts 64 ps.flatten
      createOp k s freg (fun id n =>
        { (default : EOp) with
            id := id, cluster := k.cluster, ctx := k.ctx, serial := n, kind := .copy, block := k.block, core := b.core, ssp := ssp, dsp := dsp,
            rmt := if rmt then some (dpos, (f.flags.extractLsb' 4 2).toNat) else none, aw := if aw then some off else none, pieces := pieces,
            prog := k.isProg, gid := k.gid })

/-- The member list of a COLL: N, RANK and positions. None: it breaks R239. -/
def memberList (ctx : Ctx) (b : List Byte) : Option (Nat × List Nat) :=
  let n := leAt b 0 2
  let rank := leAt b 2 2
  let ms := (List.range n).map (fun i => leAt b (8 + 2 * i) 2)
  if 2 ≤ n ∧ n ≤ 4096 ∧ rank < n ∧ leAt b 4 4 = 0 ∧ ms.getD rank 0 = ctx.gangPos ∧ ms.all (fun m => m < ctx.gangSize) then some (rank, ms) else none

def collEff (m : CollOp) (f : XForm) (k : SlotCtx) (s : State) : Out :=
  let a := match f.a with | .scalar i => i.toNat | _ => 0
  let freg := (f.bank.extractLsb' 8 4).toNat
  let d (i : Nat) : Nat := (k.sword (a + i)).toNat
  let ctx := s.getCtx k.ctx
  let src := d 0 + d 1 * 2 ^ 32
  let dst := d 2 + d 3 * 2 ^ 32
  let list := d 6 + d 7 * 2 ^ 32
  let ty := d 5 % 16
  if 120 < a then outTrap s k.whole .bounds
  else if k.ex = 0 then outNone s
  else if !k.uniform s f.b then outTrap s k.ex .uniformity
  else if d 1 / 2 ^ 24 ≠ 0 ∨ d 3 / 2 ^ 24 ≠ 0 ∨ d 4 / 2 ^ 24 ≠ 0 ∨ bitsOf (d 5) 4 12 ≠ 0 ∨ d 5 / 2 ^ 28 ≠ 0 ∨ 4 < ty then outTrap s k.ex .reservedField
  else if !ctx.gang then outTrap s k.ex .bounds
  else if list % 64 ≠ 0 then outFault s k ⟨.misaligned, list, 0⟩
  else if 2 ^ 56 ≤ list then outFault s k ⟨.bounds, list, 0⟩
  else
    let (s, r) := readVirt s k.who k.core k.ctx list 8 .read
    match r with
    | .inl (.fault x) => outFault s k x
    | .inl _ => .stall s
    | .inr hd =>
      let (s, r) := readVirt s k.who k.core k.ctx list (8 + 2 * leAt hd 0 2) .read
      match r with
      | .inl (.fault x) => outFault s k x
      | .inl _ => .stall s
      | .inr b =>
        match memberList ctx b with
        | none => outTrap s k.ex .bounds
        | some (rank, ms) =>
          let c : CollInfo := ⟨m, ty, d 4, bitsOf (d 5) 16 12, ms, rank, (k.rd s f.b ((lowestLane k.ex).getD 0)).toNat, src, (f.flags.extractLsb' 0 2).toNat⟩
          if 2 ^ 56 < src + c.srcLen rank ∨ 2 ^ 56 < dst + c.dstLen ∨ (m = .broadcast ∧ ms.length ≤ c.root) then outTrap s k.ex .bounds
          else if !opRoom k s freg then .stall s
          else
            let parts := (chunks (c.dstLen / 64 + 2) dst c.dstLen).map (fun x => Part.mk (x.1 - dst) x.1 x.2)
            createOp k s freg (fun id n =>
              { (default : EOp) with
                  id := id, cluster := k.cluster, ctx := k.ctx, serial := n, kind := .coll c, block := k.block, pieces := groupParts 64 parts, gid := k.gid })

/-! ## Futures (R226, R227) -/

/-- The token that FTEST, FWAIT and FCANCEL name, and its F register. -/
def futureTok (f : VForm) (k : SlotCtx) (s : State) : Word × Option Nat :=
  match f.a with
  | .v i => (k.g.freg i.toNat, some i.toNat)
  | _ => (k.rd s f.b ((lowestLane k.ex).getD 0), none)

/-- The checks the three share, then the instruction on the token's status. -/
def futureEff (f : VForm) (act : Word → Option Nat → Nat → State → Out) (k : SlotCtx) (s : State) : Out :=
  let (t, reg) := futureTok f k s
  if k.ex = 0 then outNone s
  else if reg.isNone && !k.uniform s f.b then outTrap s k.ex .uniformity
  else if 71 < tokCluster t then outTrap s k.ex .bounds
  else
    let st := tokenStatus s k.ctx t
    act t reg st (if 2 ≤ st then observe s k.ctx k.gid k.entry t else s)

def ftestEff (f : VForm) (k : SlotCtx) (s : State) : Out := futureEff f (fun _ _ st s => outAll k s [BitVec.ofNat 32 st]) k s

def fwaitEff (f : VForm) (k : SlotCtx) (s : State) : Out :=
  futureEff f (fun t _ st s =>
    if st = 1 then .stall s
    else if st = 3 then
      match s.token? k.ctx (tokCluster t) (tokSerial t) with
      | some x => outFault s k ⟨Cause.ofCode x.cause, x.addr, 0⟩
      | none => .stall s
    else if st = 4 then outTrap s k.ex .futureCancelled
    else outAll k s [BitVec.ofNat 32 st]) k s

/-- End a pending operation or program as CANCELLED. -/
def cancelToken (s : State) (ctx : Nat) (t : Word) : State :=
  match s.mx.ops.find? (fun o => o.ctx == ctx && o.cluster == tokCluster t && o.serial == tokSerial t) with
  | some o => cancelOp s o true
  | none =>
    match s.mx.progs.find? (fun p => p.ctx == ctx && p.tokCl == tokCluster t && p.serial == tokSerial t) with
    | some p => stopProg s p.cluster p.isSeq .cancelled 0 0
    | none => s

def fcancelEff (f : VForm) (k : SlotCtx) (s : State) : Out :=
  futureEff f (fun t reg st s =>
    if st = 1 then outAll k (cancelToken s k.ctx t) [1]
    else
      let s := match reg with | some n => setToken s k.ctx k.gid n 0 | none => s
      outAll k s [BitVec.ofNat 32 st]) k s

/-! ## Arrival words (R231 to R233) -/

def awCheck (f : VForm) (limit : Bool) (act : Nat → Nat → Out) (k : SlotCtx) (s : State) : Out :=
  let l := (lowestLane k.ex).getD 0
  let off := (k.rd s f.a l).toNat
  let x := (k.rd s f.b l).toNat
  if k.ex = 0 then outNone s
  else if !k.uniform s f.a || !k.uniform s f.b then outTrap s k.ex .uniformity
  else if off % 8 ≠ 0 then outTrap s k.ex .misaligned
  else if off + 8 > (s.getBlock k.block).size then outTrap s k.ex .bounds
  else if limit ∧ 0xFFFFFF < x then outTrap s k.ex .bounds
  else act off x

def awinitEff (f : VForm) (k : SlotCtx) (s : State) : Out :=
  awCheck f true (fun off x =>
    let g := ((s.getBlock k.block).arrival off).gen
    outAll k (scratchWrite s k.block off (bytesOfNat 8 (Arrival.mk x 0 g).toNat)) [BitVec.ofNat 32 g]) k s

def awaddEff (f : VForm) (k : SlotCtx) (s : State) : Out :=
  awCheck f true (fun off x =>
    let s := arrivalAdd s k.block off x
    outAll k s [BitVec.ofNat 32 ((s.getBlock k.block).arrival off).gen]) k s

def awaitEff (f : VForm) (k : SlotCtx) (s : State) : Out :=
  match k.park with
  | some p => match p.wake with
    | some g => outAll k s [BitVec.ofNat 32 g]
    | none => .stall s
  | none =>
    awCheck f false (fun off x =>
      let g := ((s.getBlock k.block).arrival off).gen
      if g ≠ x % 65536 then outAll k s [BitVec.ofNat 32 g] else .park s (.await off (x % 65536))) k s

/-! ## FORK (R235, R236, R289) -/

/-- An engine program record. -/
structure ProgRec where
  codeBase : Nat
  codeSize : Nat
  entry : Nat
  args : Nat
  kind : Nat
  bytes : List Byte
  addr : Nat
  deriving Inhabited

def ProgRec.ofBytes (addr : Nat) (b : List Byte) : ProgRec :=
  ⟨leAt b 0 8, leAt b 8 4, leAt b 12 4, leAt b 16 8, leAt b 24 1, b, addr⟩

def ProgRec.ok (r : ProgRec) (isSeq : Bool) : Bool :=
  r.codeBase < 2 ^ 56 && r.codeBase % 4096 == 0 && r.codeSize % 8 == 0 && 16 ≤ r.codeSize && r.entry % 8 == 0 && r.entry < r.codeSize &&
    allZero r.bytes 25 39 && r.kind == (if isSeq then 1 else 2)

/-- Put a program's first bytes into a unit's code store, unless it holds them (R289). -/
def loadStore (k : SlotCtx) (isSeq : Bool) (r : ProgRec) (s : State) : State × Option Tr :=
  if s.mx.stores.any (fun c => c.cluster == k.cluster && c.isSeq == isSeq && c.ctx == k.ctx && c.recAddr == r.addr && c.bytes == r.bytes) then (s, none)
  else
    let n := min r.codeSize 32768
    let (s, b) := readVirt s k.who (engCore k.cluster) k.ctx r.codeBase n .fetch
    match b with
    | .inl t => (s, some t)
    | .inr bs =>
      let old := s.mx.stores.filter (fun c => !(c.cluster == k.cluster && c.isSeq == isSeq))
      let s := { s with mx := { s.mx with stores := old ++ [CodeStore.mk k.cluster isSeq k.ctx r.addr r.bytes (bytesAt 0 bs)] } }
      ((s.charge k.ctx 0 (256 + (n + 7) / 8)).charge k.ctx 1 ((n + 63) / 64), none)

/-- A unit starts on its program. -/
def startUnit (k : SlotCtx) (isSeq : Bool) (r : ProgRec) (freg : Option Nat) (s : State) : State :=
  let (s, n) := newToken s k.ctx k.cluster
  let p : Prog :=
    { (default : Prog) with
        id := s.nextId, isSeq := isSeq, cluster := k.cluster, ctx := k.ctx, block := k.g.block, gid := k.gid, serial := n, tokCl := k.cluster, codeBase := r.codeBase,
        codeSize := r.codeSize, regs := SMap.setRun 0 ([] : SMap Word) 0 [BitVec.ofNat 32 r.args, BitVec.ofNat 32 (r.args / 2 ^ 32)],
        fmt := k.c.fmt, off := (r.entry : Int), live := true, ending := .done }
  let s := { s with nextId := s.nextId + 1, mx := { s.mx with progs := s.mx.progs ++ [p] } }
  match freg with
  | some f => setToken s k.ctx k.gid f (tokenWord k.cluster n)
  | none => s

/-- Read a named record; none for constant 0. -/
def readRec (k : SlotCtx) (x : Src) (s : State) : State × (Tr ⊕ Option ProgRec) :=
  if x.isConst then (s, .inr none)
  else
    let a := k.rd64 s x 0
    let (s, r) := readVirt s k.who k.core k.ctx a 64 .read
    match r with
    | .inl t => (s, .inl t)
    | .inr b => (s, .inr (some (ProgRec.ofBytes a b)))

def recBad (r : Option ProgRec) (isSeq : Bool) : Bool := match r with | some r => !r.ok isSeq | none => false

/-- Load both stores, then start both units as one fork set. -/
def forkGo (f : XForm) (ra rb : Option ProgRec) (k : SlotCtx) (s : State) : Out :=
  let load (isSeq : Bool) (r : Option ProgRec) (s : State) : State × Option Tr := match r with | some r => loadStore k isSeq r s | none => (s, none)
  let (s, e) := load true ra s
  match e with
  | some (.fault x) => outFault s k x
  | some _ => .stall s
  | none =>
    let (s, e) := load false rb s
    match e with
    | some (.fault x) => outFault s k x
    | some _ => .stall s
    | none =>
      let s := match ra with | some r => startUnit k true r (if f.flags.getLsbD 0 then some (f.bank.extractLsb' 8 4).toNat else none) s | none => s
      let s := match rb with | some r => startUnit k false r (if f.flags.getLsbD 1 then some (f.bank.extractLsb' 4 4).toNat else none) s | none => s
      if ra.isNone && rb.isNone then outNone s
      else outNone { s with nextId := s.nextId + 1,
                            mx := { s.mx with forks := s.mx.forks ++ [ForkSet.mk s.nextId k.gid k.cluster true ra.isSome rb.isSome []] } }

def forkEff (f : XForm) (k : SlotCtx) (s : State) : Out :=
  let addr (x : Src) : Nat := if x.isConst then 0 else k.rd64 s x 0
  if k.ex = 0 then outNone s
  else if addr f.a % 64 ≠ 0 then outFault s k ⟨.misaligned, addr f.a, 0⟩
  else if addr f.b % 64 ≠ 0 then outFault s k ⟨.misaligned, addr f.b, 0⟩
  else if 2 ^ 56 ≤ addr f.a then outFault s k ⟨.bounds, addr f.a, 0⟩
  else if 2 ^ 56 ≤ addr f.b then outFault s k ⟨.bounds, addr f.b, 0⟩
  else
    let (s, ra) := readRec k f.a s
    match ra with
    | .inl (.fault x) => outFault s k x
    | .inl _ => .stall s
    | .inr ra =>
      let (s, rb) := readRec k f.b s
      match rb with
      | .inl (.fault x) => outFault s k x
      | .inl _ => .stall s
      | .inr rb =>
        let pend (on : Bool) (n : BitVec 4) : Bool := on && tokenStatus s k.ctx (k.g.freg n.toNat) == 1
        if recBad ra true || recBad rb false then outFault s k (handleFault 1)
        else if (s.forkOf k.gid).isSome || (ra.isSome && (s.prog? k.cluster true).isSome) || (rb.isSome && (s.prog? k.cluster false).isSome) ||
            pend (f.flags.getLsbD 0) (f.bank.extractLsb' 8 4) || pend (f.flags.getLsbD 1) (f.bank.extractLsb' 4 4) ||
            !(k.g.queueOf k.sp.mask).isEmpty then .stall s
        else forkGo f ra rb k s

/-! ## RDV (R237) -/

/-- The fork set of a program. -/
def progFork (s : State) (p : Prog) : Option ForkSet :=
  s.mx.forks.find? (fun f => f.gid == p.gid && f.cluster == p.cluster && (if p.isSeq then f.seq else f.eng))

/-- A phase has not advanced: the arriving unit waits. -/
def rdvWait (k : SlotCtx) (n ph : Nat) (id : Nat) (s : State) : Out :=
  match s.mx.forks.find? (fun f => f.id == id) with
  | some f => if (f.rdvs.get n default).ph = ph then .park s (.rdv n) else outNone (acquire s k.gid k.entry 4)
  | none => outNone (acquire s k.gid k.entry 4)

def rdvEff (f : VForm) (k : SlotCtx) (s : State) : Out :=
  let n := (k.rd s f.a ((lowestLane k.ex).getD 0)).toNat
  match k.park with
  | some p => if p.wake.isNone || !(k.isProg || loadsDone k) then .stall s else outNone (if k.isProg then s else acquire s k.gid k.entry 4)
  | none =>
    if k.ex = 0 then outNone s
    else if !k.uniform s f.a then outTrap s k.ex .uniformity
    else if 7 < n then outTrap s k.ex .bounds
    else if k.isProg then
      match progFork s k.p with
      | none => outNone s
      | some fs =>
        if !k.p.ops.isEmpty || !k.p.queue.isEmpty || s.now < k.p.gwct || (k.p.lastsend ≠ 0 && windowOf s.now < k.p.lastsend + 2) then .stall s
        else
          let r := fs.rdvs.get n default
          let units := if k.p.isSeq then [true, r.units.getD 1 false] else [r.units.getD 0 false, true]
          let s := rdvTest (s.updFork fs.id (fun x => { x with rdvs := x.rdvs.set default n { r with units := units } })) fs.id n
          match s.mx.forks.find? (fun x => x.id == fs.id) with
          | some x => if (x.rdvs.get n default).ph = r.ph then .park s (.rdv n) else outNone s
          | none => outNone s
    else
      match s.forkOf k.gid with
      | none => outNone s
      | some fs =>
        if !released k s 4 then .stall s
        else
          let r := fs.rdvs.get n default
          let marks := k.lanes.foldl (fun (m : SMap Nat) l => m.set 0 l ((r.ph + 1) % 65536)) r.marks
          let s := rdvTest (s.updFork fs.id (fun x => { x with rdvs := x.rdvs.set default n { r with marks := marks } })) fs.id n
          rdvWait k n r.ph fs.id s

/-! ## The meanings -/

/-- CPY (R228 to R230). -/
def execCpy (f : XForm) (s : State) : Host.Outcome State Fault Refusal :=
  slotStep (.cpy f) (copyEff 0 f) s
/-- GATH (R228 to R230). -/
def execGath (f : XForm) (s : State) : Host.Outcome State Fault Refusal :=
  slotStep (.gath f) (copyEff 1 f) s
/-- SCAT (R228 to R230). -/
def execScat (f : XForm) (s : State) : Host.Outcome State Fault Refusal :=
  slotStep (.scat f) (copyEff 2 f) s
/-- COLL (R239, R240). -/
def execColl (m : CollOp) (f : XForm) (s : State) : Host.Outcome State Fault Refusal :=
  slotStep (.coll m f) (collEff m f) s

/-- Run an event on the operation it names. -/
def onOp (s : State) (r : OpRef) (f : State → EOp → State) : Host.Outcome State Fault Refusal :=
  match s.opOf r with
  | some o => .next (f s o)
  | none => .next s

/-- ENGINE_SOURCE_READ (R221). -/
def execEngineSourceRead (o : OpRef) (piece : Nat) (s : State) : Host.Outcome State Fault Refusal :=
  onOp s o (fun s o => opRead s o piece)
/-- ENGINE_SECTOR_COMMIT (R208). -/
def execEngineSectorCommit (o : OpRef) (piece : Nat) (s : State) : Host.Outcome State Fault Refusal :=
  onOp s o (fun s o => opCommit s o piece)
/-- ENGINE_SCRATCH_LAND (R230). -/
def execEngineScratchLand (o : OpRef) (piece : Nat) (s : State) : Host.Outcome State Fault Refusal :=
  onOp s o (fun s o => opLand s o piece)
/-- ENGINE_OP_DONE (R209). -/
def execEngineOpDone (o : OpRef) (s : State) : Host.Outcome State Fault Refusal :=
  onOp s o (fun s o => if opComplete s o then finishOp s o .done 0 0 else s)
/-- ENGINE_OP_FAULT (R221). -/
def execEngineOpFault (o : OpRef) (why : EngineFault) (s : State) : Host.Outcome State Fault Refusal :=
  onOp s o (fun s o => opFault s o why)

/-- FTEST (R227). -/
def execFtest (f : VForm) (s : State) : Host.Outcome State Fault Refusal :=
  slotStep (.ftest f) (ftestEff f) s
/-- FWAIT (R227). -/
def execFwait (f : VForm) (s : State) : Host.Outcome State Fault Refusal :=
  slotStep (.fwait f) (fwaitEff f) s
/-- FCANCEL (R227). -/
def execFcancel (f : VForm) (s : State) : Host.Outcome State Fault Refusal :=
  slotStep (.fcancel f) (fcancelEff f) s
/-- AWINIT (R233). -/
def execAwinit (f : VForm) (s : State) : Host.Outcome State Fault Refusal :=
  slotStep (.awinit f) (awinitEff f) s
/-- AWAIT (R233). -/
def execAwait (f : VForm) (s : State) : Host.Outcome State Fault Refusal :=
  slotStep (.await f) (awaitEff f) s
/-- AWADD (R233). -/
def execAwadd (f : VForm) (s : State) : Host.Outcome State Fault Refusal :=
  slotStep (.awadd f) (awaddEff f) s
/-- FORK (R236). -/
def execFork (f : XForm) (s : State) : Host.Outcome State Fault Refusal :=
  slotStep (.fork f) (forkEff f) s
/-- RDV (R237). -/
def execRdv (f : VForm) (s : State) : Host.Outcome State Fault Refusal :=
  slotStep (.rdv f) (rdvEff f) s

end Sys2Proof.Machine
end

