-- ==== Sys2Proof/Machine/Lns.lean ====
section
/-! DEFINITION. LNS6 (R163 to R167): codes, packed words, conversion, product and exact sum. -/

namespace Sys2Proof.Machine

/-- T of R163, times 4096. -/
def lnsT (i : Nat) : Nat := [4096, 4871, 5793, 6889].getD i 0

/-- Element i of a packed word (R164). -/
def lnsElem (w : Word) (i : Nat) : Nat := bitsOf w.toNat (6 * i) 6
def lnsL (c : Nat) : Nat := c % 32
def lnsNeg (c : Nat) : Bool := c / 32 % 2 == 1

/-- T[e mod 4] * 2^(floor(e / 4) + k), as a signed dyadic (R163, R167). -/
def lnsMag (neg : Bool) (e : Nat) (k : Int) : Dy := Dy.ofFin neg (lnsT (e % 4)) ((e / 4 : Nat) + k - 12)

/-- V(L) of R165; V(0) = 0. -/
def lnsV (L : Nat) : Dy := if L = 0 then ⟨0, 0⟩ else lnsMag false L (-4)

/-- The value of a code under a scale (R163). -/
def lnsVal (c : Nat) (q : Int) : Dy := if lnsL c = 0 then ⟨0, 0⟩ else lnsMag (lnsNeg c) (lnsL c) (q - 4)

def Dy.sub (a b : Dy) : Dy := a.add ⟨-b.m, b.e⟩
def Dy.le (a b : Dy) : Bool := !(b.lt a)

/-- The largest L with V(L) at most m. -/
def lnsFloor (m : Dy) : Nat := (List.range 32).foldl (fun a L => if (lnsV L).le m then L else a) 0

/-- The L that a magnitude goes to, before OVF and UNF (R165). -/
def lnsPick (mode : BitVec 2) (neg : Bool) (m : Dy) : Nat :=
  let lo := lnsFloor m
  let hi := min 31 (lo + 1)
  let exact := (lnsV lo).le m && m.le (lnsV lo)
  if exact then lo
  else match mode.toNat with
    | 0 =>
      let a := m.sub (lnsV lo)
      let b := (lnsV hi).sub m
      if a.lt b then lo else if b.lt a then hi else if lo % 2 = 0 then lo else hi
    | 1 => lo
    | 2 => if neg then lo else hi
    | _ => if neg then hi else lo

/-- CVT.8: the code of an f32 and its flags. -/
def toLns (x : Nat) (ascale : Int) (mode : BitVec 2) : Nat × Nat :=
  match f32.unpack x with
  | .nan _ => (0, fINV)
  | .inf n => ((if n then 32 else 0) + 31, fOVF)
  | .fin n m e =>
    if m = 0 then (0, 0)
    else
      let d : Dy := ⟨m, e - ascale⟩
      if (lnsV 31).lt d then ((if n then 32 else 0) + 31, fOVF)
      else
        let L := lnsPick mode n d
        if L = 0 then (0, fUNF) else ((if n then 32 else 0) + L, 0)

/-- A packed word with element b replaced, bits 31:30 zero. -/
def lnsPut (w : Word) (b code : Nat) : Word :=
  BitVec.ofNat 32 ((List.range 5).foldl (fun a i => a + (if i = b then code else lnsElem w i) * 2 ^ (6 * i)) 0)

/-- CVT.9: a code as f32. -/
def ofLns (c : Nat) (ascale : Int) (mode : BitVec 2) : FRes := f32.round ((lnsVal c ascale).ex false) mode

/-- LMUL (R166): one product and its flags. -/
def lmulCode (a b : Nat) : Nat × Nat :=
  if lnsL a = 0 ∨ lnsL b = 0 then (0, 0)
  else
    let sum := lnsL a + lnsL b
    if sum < 17 then (0, fUNF)
    else
      let sg := if lnsNeg a != lnsNeg b then 32 else 0
      if sum - 16 > 31 then (sg + 31, fOVF) else (sg + (sum - 16), 0)

def lmulOf (a b : Word) : FRes :=
  (List.range 5).foldl (fun r i =>
    let (c, fl) := lmulCode (lnsElem a i) (lnsElem b i)
    ⟨r.bits + c * 2 ^ (6 * i), r.flags ||| fl⟩) ⟨0, 0⟩

/-- One exact product of LSUM (R167). -/
def lsumTerm (scale : Int) (a b : Nat) : Dy :=
  if lnsL a = 0 ∨ lnsL b = 0 then ⟨0, 0⟩ else lnsMag (lnsNeg a != lnsNeg b) (lnsL a + lnsL b) (scale - 8)

/-- LSUM (R167). -/
def lsumOf (scale : Int) (a b : Word) (c : Nat) : FRes :=
  match f32.unpack c with
  | .nan sg => f32.nanRes (invIf sg)
  | .inf _ => ⟨c, 0⟩
  | .fin n m e =>
    let S := (List.range 5).foldl (fun t i => t.add (lsumTerm scale (lnsElem a i) (lnsElem b i))) (Dy.ofFin n m e)
    f32.round (S.ex (n && m == 0)) 0

end Sys2Proof.Machine
end

