-- ==== Sys2Proof/Machine/Vec.lean ====
section
/-! DEFINITION. Floating instructions of the vector units (R152 to R162), the LNS6 instructions (R165 to
R167) and FMTSET and FMTGET (R150, R151). -/

namespace Sys2Proof.Machine

/-! ## Operands with their modifiers (R33, R153) -/

def fA (f : VForm) (k : SlotCtx) (s : State) (l : Nat) : Nat := modify f32 f.moda (k.rdF32 s f.a l)
def fB (f : VForm) (k : SlotCtx) (s : State) (l : Nat) : Nat := modify f32 f.modb (k.rdF32 s f.b l)

def satIf (t : FFmt) (sat : Bool) (r : FRes) : FRes := if sat then t.sat r else r

/-- FADD, FSUB and FMUL. -/
inductive ArithOp where | add | sub | mul
  deriving DecidableEq, Repr

def arith (op : ArithOp) (t : FFmt) (x y : Nat) (mode : BitVec 2) (sat : Bool) : FRes :=
  satIf t sat (match op with
    | .add => t.add (t.unpack x) (t.unpack y) mode
    | .sub => t.add (t.unpack x) (t.unpack y).neg mode
    | .mul => t.mul (t.unpack x) (t.unpack y) mode)

def fmaOf (t : FFmt) (x y z : Nat) (mode : BitVec 2) (sat : Bool) : FRes :=
  satIf t sat (t.fma (t.unpack x) (t.unpack y) (t.unpack z) mode)

def arithEff (op : ArithOp) (f : VForm) (k : SlotCtx) (s : State) : Out :=
  laneFloat k s (fun l => arith op f32 (fA f k s l) (fB f k s l) f.rnd f.sat)

def minmaxEff (isMax : Bool) (f : VForm) (k : SlotCtx) (s : State) : Out :=
  laneFloat k s (fun l => f32.minmax isMax (fA f k s l) (fB f k s l))

/-- FCMP (R154). -/
def fcmpOf (m : FCond) (x y : Nat) : FRes :=
  let a := f32.unpack x
  let b := f32.unpack y
  let c := cmpVal a b
  let r := match m with
    | .eq => c == some 0
    | .ne => c != some 0
    | .lt => c == some (-1)
    | .le => c == some (-1) || c == some 0
    | .gt => c == some 1
    | .ge => c == some 1 || c == some 0
    | .num => c.isSome
    | .nan => c.isNone
  ⟨if r then 1 else 0, invIf (isSig a || isSig b)⟩

def rndMode : Rnd → BitVec 2
  | .rne => 0 | .rz => 1 | .up => 2 | .down => 3

/-! ## Special functions (R157 to R159) -/

def sfuEff (op : Nat) (f : VForm) (k : SlotCtx) (s : State) : Out :=
  let l3 := s.ctl.powerLevel == 3
  let s := if l3 && k.ex != 0 then orFlags s k.gid fPCAP3 else s
  laneFloat k s (fun l => sfu op l3 (fA f k s l))

/-! ## Conversions (R160, R161, R165) -/

/-- Narrowing with its SAT. -/
def narrow (a b : FFmt) (x : Nat) (mode : BitVec 2) (sat : Bool) : FRes :=
  if sat then b.finite (convert a b x mode) else convert a b x mode

/-- Two halves packed, with the flags of both. -/
def pack2 (lo hi : FRes) : FRes := ⟨lo.bits + hi.bits * 65536, lo.flags ||| hi.flags⟩

def ofToInt (r : Int × Nat) : FRes := ⟨(BitVec.ofInt 32 r.1).toNat, r.2⟩

/-- The conversions that take every element index. -/
def cvtOf (m : CvtOp) (f : VForm) (k : SlotCtx) (s : State) (l : Nat) : FRes :=
  let w := k.rd s f.a l
  match m with
  | .f32f16 => narrow f32 f16 (fA f k s l) f.rnd f.sat
  | .f32bf16 => narrow f32 bf16 (fA f k s l) f.rnd f.sat
  | .f16f32 => convert f16 f32 (k.rdHalf s f16 f.a l) 0
  | .bf16f32 => convert bf16 f32 (k.rdHalf s bf16 f.a l) 0
  | .f32s32 => ofToInt (toInt (f32.unpack (fA f k s l)) f.rnd (-2147483648) 2147483647)
  | .f32z32 => ofToInt (toInt (f32.unpack (fA f k s l)) f.rnd 0 4294967295)
  | .s32f32 => f32.ofInt w.toInt f.rnd
  | .z32f32 => f32.ofInt w.toNat f.rnd
  | .f32lns =>
    let (c, fl) := toLns (fA f k s l) (fmtAScale k.c.fmt) f.rnd
    ⟨(lnsPut (k.rd s f.c l) (k.rd s f.b l).toNat c).toNat, fl⟩
  | .lnsf32 => ofLns (lnsElem w (k.rd s f.b l).toNat) (fmtAScale k.c.fmt) f.rnd
  | .bf16f16 => narrow bf16 f16 (k.rdHalf s bf16 f.a l) f.rnd f.sat
  | .f16bf16 => narrow f16 bf16 (k.rdHalf s f16 f.a l) f.rnd f.sat
  | .f16x2 => pack2 (narrow f32 f16 (fA f k s l) f.rnd f.sat) (narrow f32 f16 (fB f k s l) f.rnd f.sat)
  | .bf16x2 => pack2 (narrow f32 bf16 (fA f k s l) f.rnd f.sat) (narrow f32 bf16 (fB f k s l) f.rnd f.sat)

/-- CVT; an element index above 4 traps BOUNDS for its lane (R164). -/
def cvtEff (m : CvtOp) (f : VForm) (k : SlotCtx) (s : State) : Out :=
  let indexed := match m with | .f32lns | .lnsf32 => true | _ => false
  let bad := if indexed then k.lanes.filter (fun l => 4 < (k.rd s f.b l).toNat) else []
  if bad.isEmpty then laneFloat k s (cvtOf m f k s)
  else
    let k' := { k with ex := k.ex &&& ~~~(maskOf bad) }
    match laneFloat k' s (cvtOf m f k s) with
    | .done s r => .trap s r ⟨0, bad.map (fun l => (l, ⟨.bounds, 0, 0⟩))⟩
    | .trap s r t => .trap s r ⟨0, k.lanes.filterMap (fun l =>
        if bad.contains l then some (l, ⟨.bounds, 0, 0⟩) else t.lanes.find? (fun x => x.1 == l))⟩
    | o => o

/-! ## Packed halves (R162) -/

def halfFmt : Half → FFmt
  | .f16 => f16
  | .bf16 => bf16

def pkEff (op : ArithOp) (m : Half) (f : VForm) (k : SlotCtx) (s : State) : Out :=
  let t := halfFmt m
  laneFloat k s (fun l =>
    let x := k.rdHalf2 s t f.a l
    let y := k.rdHalf2 s t f.b l
    let one (x y : Nat) : FRes := arith op t (modify t f.moda x) (modify t f.modb y) f.rnd f.sat
    pack2 (one x.1 y.1) (one x.2 y.2))

def pkfmaEff (m : Half) (f : VForm) (k : SlotCtx) (s : State) : Out :=
  let t := halfFmt m
  laneFloat k s (fun l =>
    let x := k.rdHalf2 s t f.a l
    let y := k.rdHalf2 s t f.b l
    let z := k.rdHalf2 s t f.c l
    let one (x y z : Nat) : FRes := fmaOf t (modify t f.moda x) (modify t f.modb y) z f.rnd f.sat
    pack2 (one x.1 y.1 z.1) (one x.2 y.2 z.2))

/-! ## The format register (R150, R151) -/

/-- FMTSET: the old FMT in every active lane; the new one is pending until the clause ends (R149). -/
def fmtsetEff (f : IForm) (k : SlotCtx) (s : State) : Out :=
  let s := s.updGroup k.gid (fun g => match g.split? k.entry with
    | some sp => g.setSplit k.entry (some { sp with clause := sp.clause.map (fun c => { c with pend := some f.imm }) })
    | none => g)
  laneWord k s (fun _ => k.c.fmt)

def fmtgetEff (f : VForm) (k : SlotCtx) (s : State) : Out :=
  laneWord k s (fun l =>
    match (k.rd s f.a l).toNat with
    | 0 => k.c.fmt
    | 1 => k.sp.sfmt
    | 2 => k.g.fpstat
    | _ => 0)

/-! ## The meanings -/

/-- FADD (R153). -/
def execFadd (f : VForm) (s : State) : Host.Outcome State Fault Refusal :=
  slotStep (.fadd f) (arithEff .add f) s
/-- FSUB (R153). -/
def execFsub (f : VForm) (s : State) : Host.Outcome State Fault Refusal :=
  slotStep (.fsub f) (arithEff .sub f) s
/-- FMUL (R153). -/
def execFmul (f : VForm) (s : State) : Host.Outcome State Fault Refusal :=
  slotStep (.fmul f) (arithEff .mul f) s
/-- FFMA (R153). -/
def execFfma (f : VForm) (s : State) : Host.Outcome State Fault Refusal :=
  slotStep (.ffma f) (fun k s => laneFloat k s (fun l => fmaOf f32 (fA f k s l) (fB f k s l) (k.rdF32 s f.c l) f.rnd f.sat)) s
/-- FMIN (R153). -/
def execFmin (f : VForm) (s : State) : Host.Outcome State Fault Refusal :=
  slotStep (.fmin f) (minmaxEff false f) s
/-- FMAX (R153). -/
def execFmax (f : VForm) (s : State) : Host.Outcome State Fault Refusal :=
  slotStep (.fmax f) (minmaxEff true f) s
/-- FCMP (R154). -/
def execFcmp (m : FCond) (f : VForm) (s : State) : Host.Outcome State Fault Refusal :=
  slotStep (.fcmp m f) (fun k s => laneFloat k s (fun l => fcmpOf m (fA f k s l) (fB f k s l))) s
/-- FRND (R155). -/
def execFrnd (m : Rnd) (f : VForm) (s : State) : Host.Outcome State Fault Refusal :=
  slotStep (.frnd m f) (fun k s => laneFloat k s (fun l => frndOf (fA f k s l) (rndMode m))) s
/-- FCLASS (R156). -/
def execFclass (f : VForm) (s : State) : Host.Outcome State Fault Refusal :=
  slotStep (.fclass f) (fun k s => laneWord k s (fun l => BitVec.ofNat 32 (fclassOf (k.rdF32 s f.a l)))) s
/-- FRCP (R157, R158). -/
def execFrcp (f : VForm) (s : State) : Host.Outcome State Fault Refusal :=
  slotStep (.frcp f) (sfuEff 0 f) s
/-- FRSQ (R157, R158). -/
def execFrsq (f : VForm) (s : State) : Host.Outcome State Fault Refusal :=
  slotStep (.frsq f) (sfuEff 1 f) s
/-- FEXP2 (R157, R158). -/
def execFexp2 (f : VForm) (s : State) : Host.Outcome State Fault Refusal :=
  slotStep (.fexp2 f) (sfuEff 2 f) s
/-- FLOG2 (R157, R158). -/
def execFlog2 (f : VForm) (s : State) : Host.Outcome State Fault Refusal :=
  slotStep (.flog2 f) (sfuEff 3 f) s
/-- FSIN (R157, R158). -/
def execFsin (f : VForm) (s : State) : Host.Outcome State Fault Refusal :=
  slotStep (.fsin f) (sfuEff 4 f) s
/-- FCOS (R157, R158). -/
def execFcos (f : VForm) (s : State) : Host.Outcome State Fault Refusal :=
  slotStep (.fcos f) (sfuEff 5 f) s
/-- CVT (R160, R161, R165). -/
def execCvt (m : CvtOp) (f : VForm) (s : State) : Host.Outcome State Fault Refusal :=
  slotStep (.cvt m f) (cvtEff m f) s
/-- PKADD (R162). -/
def execPkadd (m : Half) (f : VForm) (s : State) : Host.Outcome State Fault Refusal :=
  slotStep (.pkadd m f) (pkEff .add m f) s
/-- PKMUL (R162). -/
def execPkmul (m : Half) (f : VForm) (s : State) : Host.Outcome State Fault Refusal :=
  slotStep (.pkmul m f) (pkEff .mul m f) s
/-- PKFMA (R162). -/
def execPkfma (m : Half) (f : VForm) (s : State) : Host.Outcome State Fault Refusal :=
  slotStep (.pkfma m f) (pkfmaEff m f) s
/-- FMTSET (R149, R150). -/
def execFmtset (f : IForm) (s : State) : Host.Outcome State Fault Refusal :=
  slotStep (.fmtset f) (fmtsetEff f) s
/-- FMTGET (R151). -/
def execFmtget (f : VForm) (s : State) : Host.Outcome State Fault Refusal :=
  slotStep (.fmtget f) (fmtgetEff f) s
/-- LMUL (R166). -/
def execLmul (f : VForm) (s : State) : Host.Outcome State Fault Refusal :=
  slotStep (.lmul f) (fun k s => laneFloat k s (fun l => lmulOf (k.rd s f.a l) (k.rd s f.b l))) s
/-- LSUM (R167). -/
def execLsum (f : VForm) (s : State) : Host.Outcome State Fault Refusal :=
  slotStep (.lsum f) (fun k s => laneFloat k s (fun l =>
    lsumOf (fmtAScale k.c.fmt + fmtBScale k.c.fmt) (k.rd s f.a l) (k.rd s f.b l) (k.rdF32 s f.c l))) s

end Sys2Proof.Machine
end

