-- ==== Sys2Proof/Machine/Matrix.lean ====
section
/-! DEFINITION. The matrix sequencer (R241 to R248), accumulator banks and bands (R249 to R252), MMA
(R253, R254), guided pairs (R255 to R259) and the vector side of the banks (R260 to R262). -/

namespace Sys2Proof.Machine

/-! ## Shapes (R244, R245) -/

/-- Class of an AFMT or BFMT code. -/
def fmtClass (c : Nat) : Nat := if c = 0 then 0 else if c = 1 then 1 else if c < 4 then 2 else 3
def minorClass : MmaFmt → Nat
  | .bf16 => 0
  | .f16 => 1
  | .int => 2
  | .lns6 => 3
/-- Native K of a class. -/
def nativeK (c : Nat) : Nat := if c < 2 then 16 else if c = 2 then 32 else 64

def shpM (x : Word) : Nat := bitsOf x.toNat 0 9
def shpN (x : Word) : Nat := bitsOf x.toNat 9 9
def shpK (x : Word) : Nat := bitsOf x.toNat 18 7
def shpClass (x : Word) : Nat := bitsOf x.toNat 25 3

/-- A request rounded up to the native extent, then limited. -/
def grantDim (x u lim : Nat) : Nat := min ((x + u - 1) / u * u) lim

def shapeEff (f : XForm) (k : SlotCtx) (s : State) : Out :=
  let ca := fmtClass (fmtA k.c.fmt)
  let d (x : Src) : Nat := (k.rd s x 0).toNat
  if k.ex = 0 then outNone s
  else if ca ≠ fmtClass (fmtB k.c.fmt) ∨ d f.a = 0 ∨ d f.b = 0 ∨ d f.c = 0 then outTrap s k.ex .shape
  else
    let w : Word := BitVec.ofNat 32 (grantDim (d f.a) 16 128 + grantDim (d f.b) 64 256 * 2 ^ 9 + grantDim (d f.c) (nativeK ca) 64 * 2 ^ 18 + ca * 2 ^ 25)
    outAll k (s.updProg k.cluster true (fun p => { p with shp := w })) [w]

/-! ## Banks (R249 to R252) -/

def State.bank? (s : State) (ctx cluster n : Nat) : Option Bank :=
  s.mx.banks.find? (fun b => b.ctx == ctx && b.cluster == cluster && b.num == n && b.placed)

/-- Every bank from b on is one of the context's numbers and allocated. -/
def banksOk (s : State) (ctx cluster b n : Nat) : Bool :=
  b + n ≤ 128 && (List.range n).all (fun i => (s.bank? ctx cluster (b + i)).isSome)

/-- Write one row: one step of bank order. -/
def writeRow (s : State) (ctx cluster b row : Nat) (ws : List (Nat × Word)) : State :=
  let put (x : Bank) : Bank :=
    if x.ctx == ctx && x.cluster == cluster && x.num == b then { x with words := ws.foldl (fun (m : SMap Word) e => m.set 0 (row * 64 + e.1) e.2) x.words } else x
  { s with mx := { s.mx with banks := s.mx.banks.map put } }

def bankWord (s : State) (ctx cluster b row col : Nat) : Word :=
  match s.bank? ctx cluster b with
  | some x => x.words.get (row * 64 + col) 0
  | none => 0

def ctxBanks (s : State) (ctx cluster : Nat) : List Nat :=
  (s.mx.banks.filter (fun b => b.ctx == ctx && b.cluster == cluster && b.placed)).map (fun b => b.num)
def freeBanks (s : State) (cluster : Nat) : Nat := 128 - (s.mx.banks.filter (fun b => b.cluster == cluster && b.placed)).length

/-- CX.ABQUOTA BANKS as it acts. -/
def bankQuota (c : Ctx) : Nat := min 128 (c.abquota.toNat % 256)

def aballocEff (f : XForm) (k : SlotCtx) (s : State) : Out :=
  let n := (k.rd s f.b 0).toNat
  let d := match f.a with | .scalar i => i.toNat | _ => 0
  if k.ex = 0 then outNone s
  else if n = 0 ∨ 128 < n then outTrap s k.ex .bounds
  else
    let held := ctxBanks s k.ctx k.cluster
    let pick := (List.range (129 - n)).find? (fun b => (List.range n).all (fun i => !held.contains (b + i)))
    let res (s : State) (w : Word) : Out := outAll k (s.updProg k.cluster true (fun p => { p with regs := p.regs.set 0 d w })) [w]
    match pick with
    | none => res s 0xFFFFFFFF
    | some b =>
      if bankQuota (s.getCtx k.ctx) < held.length + n ∨ freeBanks s k.cluster < n then res s 0xFFFFFFFF
      else
        let new := (List.range n).map (fun i => Bank.mk k.ctx k.cluster (b + i) [] true)
        res { s with mx := { s.mx with banks := s.mx.banks ++ new } } (BitVec.ofNat 32 b)

/-- Banks of one member's tile. -/
def tileBanks (shp : Word) : Nat := shpM shp / 16 * (shpN shp / 64)

/-- The bank ranges that an array operation names. -/
def ArrOp.ranges (o : ArrOp) : List (Nat × Nat) :=
  match o.kind with
  | .mma => [(o.bank, tileBanks o.shp)]
  | .mmap _ => [(o.bank, tileBanks o.shp), (o.bank2, tileBanks o.shp)]
  | .guide _ n _ _ => [(o.bank, n), (o.bank2, n)]
  | .aclr n => [(o.bank, n)]

def abfreeEff (f : XForm) (k : SlotCtx) (s : State) : Out :=
  let b := (k.rd s f.a 0).toNat
  let n := (k.rd s f.b 0).toNat
  if k.ex = 0 then outNone s
  else if !banksOk s k.ctx k.cluster b n then outTrap s k.ex .accUnalloc
  else if k.p.queue.any (fun o => o.ranges.any (fun r => b < r.1 + r.2 && r.1 < b + n)) then .stall s
  else outNone (releaseBanks s k.ctx k.cluster ((List.range n).map (fun i => b + i)))

/-- Group g of the bound block, with a live lane. -/
def boundGroup (s : State) (blk g : Nat) : Option Group := s.groups.find? (fun x => x.block == blk && x.gidx == g && x.liveLanes != 0)

def setBand (s : State) (gid slot : Nat) (b : Option Band) : State := s.updGroup gid (fun g => { g with bands := g.bands.set slot b })

def abgrantEff (f : XForm) (k : SlotCtx) (s : State) : Out :=
  let d (x : Src) : Nat := (k.rd s x 0).toNat
  let row0 := (f.bank.extractLsb' 8 4).toNat
  let h := (f.bank.extractLsb' 4 4).toNat + 1
  let slot := (f.bank.extractLsb' 1 3).toNat
  if k.ex = 0 then outNone s
  else if 31 < d f.b ∨ d f.c = 0 ∨ d f.a + d f.c > 128 ∨ row0 + h > 16 then outTrap s k.ex .bounds
  else if !banksOk s k.ctx k.cluster (d f.a) (d f.c) then outTrap s k.ex .accUnalloc
  else match boundGroup s k.p.block (d f.b) with
    | none => outAll k s [0]
    | some g => outAll k (setBand s g.gid slot (some ⟨d f.a, d f.c, row0, h, f.flags.getLsbD 0⟩)) [1]

def abrevokeEff (f : XForm) (k : SlotCtx) (s : State) : Out :=
  let g := (k.rd s f.b 0).toNat
  if k.ex = 0 then outNone s
  else if 31 < g then outTrap s k.ex .bounds
  else match boundGroup s k.p.block g with
    | none => outAll k s [0]
    | some x => outAll k (setBand s x.gid (f.bank.extractLsb' 1 3).toNat none) [1]

/-! ## Operands (R246 to R248) -/

/-- Layout-record TYPE that a class needs. -/
def classType (c : Nat) : Nat := if c = 0 then 7 else if c = 1 then 6 else if c = 2 then 4 else 9

def recordFits (c : Nat) (b : List Byte) : Bool := recScratch b && recRank b == 2 && recType b == classType c

/-- Where an element's word lies: an offset, a padding value, or nowhere. -/
inductive WordAt where
  | off (o : Nat)
  | pad (w : Word)
  | bad
  deriving DecidableEq, Repr

def wordPlace (blk : Block) (b : List Byte) (c0 c1 : Nat) : WordAt :=
  let es := elemSize (recType b)
  let at' (cs : List Int) : WordAt :=
    let e := elemAddr b cs
    if 0 ≤ e ∧ e + es ≤ (blk.size : Int) then .off e.toNat else .bad
  let cs : List Int := [c0, c1]
  if coordsIn b cs then at' cs
  else match recMode b with
    | 0 => .pad (extendElem es false (leAt b 16 es))
    | 1 => at' (clampCoords b cs)
    | _ => .bad

def wordVal (blk : Block) (b : List Byte) (c0 c1 : Nat) : Nat :=
  match wordPlace blk b c0 c1 with
  | .off o => blk.nat o (elemSize (recType b))
  | .pad w => w.toNat
  | .bad => 0

/-- The words of element (x, kg): coordinates along K or N first. `role` true is A. -/
def elemWords (cls p : Nat) (roleA : Bool) (x kg : Nat) : List (Nat × Nat) :=
  match cls with
  | 2 => (List.range p).map (fun b => (8 * (kg / 32) + b, x))
  | 3 => if roleA then [(kg / 5, x)] else [(x / 5, kg)]
  | _ => if roleA then [(kg, x)] else [(x, kg)]

/-- An element's code. -/
def elemCode (blk : Block) (b : List Byte) (cls p : Nat) (roleA : Bool) (x kg : Nat) : Nat :=
  match cls with
  | 2 => (List.range p).foldl (fun a i => a + wordVal blk b (8 * (kg / 32) + i) x / 2 ^ (kg % 32) % 2 * 2 ^ i) 0
  | 3 => if roleA then bitsOf (wordVal blk b (kg / 5) x) (6 * (kg % 5)) 6 else bitsOf (wordVal blk b (x / 5) kg) (6 * (x % 5)) 6
  | _ => (if roleA then wordVal blk b kg x else wordVal blk b x kg) % 65536

/-- Extents of an operand: rows along M or N, then K. -/
def roleDim (roleA : Bool) (shp : Word) : Nat := if roleA then shpM shp else shpN shp

/-- Some element read lies out of bounds under BMODE fault, or outside the scratchpad. -/
def operandBad (blk : Block) (b : List Byte) (cls p : Nat) (roleA : Bool) (shp : Word) (org : Nat × Nat × Nat) : Bool :=
  let x0 := if roleA then org.1 else org.2.1
  (List.range (roleDim roleA shp)).any (fun i => (List.range (shpK shp)).any (fun j =>
    (elemWords cls p roleA (x0 + i) (org.2.2 + j)).any (fun c => wordPlace blk b c.1 c.2 == .bad)))

/-- All codes of a tile, element (i, kk) at i * K' + kk. -/
def tileVals (blk : Block) (b : List Byte) (cls p : Nat) (roleA : Bool) (shp : Word) (org : Nat × Nat × Nat) : List Word :=
  let x0 := if roleA then org.1 else org.2.1
  (List.range (roleDim roleA shp)).flatMap (fun i => (List.range (shpK shp)).map (fun j =>
    BitVec.ofNat 32 (elemCode blk b cls p roleA (x0 + i) (org.2.2 + j))))

/-- The entries of a cluster's operand cache, at most 64. -/
def trimOps (cluster : Nat) (l : List OpEntry) : List OpEntry :=
  let mine := (l.filter (fun e => e.cluster == cluster)).take 64
  l.filter (fun e => e.cluster != cluster || mine.contains e)

/-- Fetch an operand through the operand cache (R248). -/
def fetchOperand (s : State) (p : Prog) (o : ArrOp) (m : MOperand) (roleA : Bool) : State × List Word :=
  let hit (e : OpEntry) : Bool := e.cluster == p.cluster && e.ctx == p.ctx && e.handle == m.handle && e.roleA == roleA && e.origin == o.org && e.shp == o.shp
  match s.mx.opCache.find? hit with
  | some e => ({ s with mx := { s.mx with opCache := e :: s.mx.opCache.filter (fun x => !hit x) } }, e.vals)
  | none =>
    let v := tileVals (s.getBlock p.block) m.bytes (shpClass o.shp) (fmtPrec o.fmtw) roleA o.shp o.org
    ({ s with mx := { s.mx with opCache := trimOps p.cluster (⟨p.cluster, p.ctx, m.handle, roleA, o.org, o.shp, v⟩ :: s.mx.opCache) } }, v)

def sfenceEff (k : SlotCtx) (s : State) : Out :=
  if k.p.queue.any (fun o => !o.readAt) then .stall s
  else outNone { s with mx := { s.mx with opCache := s.mx.opCache.filter (fun e => !(e.cluster == k.cluster && e.ctx == k.ctx)) } }

/-! ## The product (R254) -/

/-- Exact sum of a chunk of products. -/
inductive ChunkSum where
  | nan
  | inf (neg : Bool)
  | fin (d : Dy)
  deriving DecidableEq, Repr

def ChunkSum.add (a : ChunkSum) (x : FVal × Bool) : ChunkSum :=
  match a, x with
  | .nan, _ => .nan
  | _, (_, true) => .nan
  | _, (.nan _, _) => .nan
  | .inf a, (.inf b, _) => if a == b then .inf a else .nan
  | .inf a, _ => .inf a
  | .fin _, (.inf b, _) => .inf b
  | .fin d, (.fin n m e, _) => .fin (d.add (Dy.ofFin n m e))

/-- round(s, f32, RNE); an exact zero is +0. -/
def ChunkSum.bits : ChunkSum → Nat
  | .nan => f32.nan
  | .inf n => (if n then f32.sign else 0) + f32.inf
  | .fin d => (f32.round (d.ex false) 0).bits

/-- acc := round(acc + round(s)). -/
def accAdd (acc : Word) (c : ChunkSum) : Word := faddWord acc (BitVec.ofNat 32 c.bits)

def pairsOf (a b : List Word) : List (Nat × Nat) := (a.zip b).map (fun x => (x.1.toNat, x.2.toNat))

/-- Chunks of n. -/
def inChunks {α : Type} (n : Nat) : Nat → List α → List (List α)
  | 0, _ => []
  | fuel + 1, l => if l.isEmpty then [] else l.take n :: inChunks n fuel (l.drop n)

/-- An integer element's value (R168, R246): code 2 is signed. -/
def intCode (signed : Bool) (p x : Nat) : Int := if signed && x / 2 ^ (p - 1) % 2 == 1 then (x : Int) - 2 ^ p else x

/-- One element of the tile. -/
def mmaElem (o : ArrOp) (acc : Word) (ps : List (Nat × Nat)) : Word :=
  let t := match o.fmt with | .f16 => f16 | _ => bf16
  match o.fmt with
  | .bf16 | .f16 =>
    (inChunks 16 (ps.length + 1) ps).foldl (fun acc c =>
      accAdd acc (c.foldl (fun r x => r.add ((t.unpack x.1).mul (t.unpack x.2))) (.fin ⟨0, 0⟩))) acc
  | .lns6 => accAdd acc (.fin (ps.foldl (fun d x => d.add (lsumTerm (fmtAScale o.fmtw + fmtBScale o.fmtw) x.1 x.2)) ⟨0, 0⟩))
  | .int =>
    let p := fmtPrec o.fmtw
    let sat := o.sat || fmtAccSat o.fmtw
    ps.foldl (fun acc x =>
      let v := acc.toInt + intCode (fmtA o.fmtw == 2) p x.1 * intCode (fmtB o.fmtw == 2) p x.2
      if sat then clampS v else BitVec.ofInt 32 v) acc

/-- The rows of one member's product, to be written. -/
def mmaRows (s : State) (p : Prog) (o : ArrOp) (bank : Nat) (a b : List Word) : List (Nat × Nat × List Word) :=
  let K := shpK o.shp
  let nb := shpN o.shp / 64
  (List.range (shpM o.shp)).flatMap (fun i => (List.range nb).map (fun jb =>
    let bk := bank + i / 16 * nb + jb
    let arow := (a.drop (i * K)).take K
    (bk, i % 16, (List.range 64).map (fun j =>
      let brow := (b.drop ((jb * 64 + j) * K)).take K
      mmaElem o (if o.acc then bankWord s p.ctx p.cluster bk (i % 16) j else 0) (pairsOf arow brow)))))

/-! ## Issue of MMA, MMAP, GUIDE and ACLR (R243, R253, R258, R259) -/

/-- m0, n0, k0 of an origin operand. None: M31 names no pair. -/
def originOf (k : SlotCtx) (x : Src) : Option (Nat × Nat × Nat) :=
  match x with
  | .scalar c => if 30 < c.toNat then none
    else some ((k.sword c.toNat).toNat % 65536, (k.sword c.toNat).toNat / 65536, (k.sword (c.toNat + 1)).toNat % 65536)
  | _ => some (0, 0, 0)

/-- M register index from BANK [21:17]. -/
def bankReg (f : XForm) : Nat := (f.bank.extractLsb' 7 5).toNat
def bankSlot (f : XForm) : Nat := (f.bank.extractLsb' 4 3).toNat

/-- Resolve the handles of an operation, in order. -/
def resolveAll (k : SlotCtx) (core : Nat) : List Word → State → State × (Tr ⊕ List MOperand)
  | [], s => (s, .inr [])
  | h :: hs, s =>
    let (s, r) := resolve k.who core k.ctx h s
    match r with
    | .stall => (s, .inl (.stall 0))
    | .fault f => (s, .inl (.fault f))
    | .ok b =>
      let (s, r) := resolveAll k core hs s
      match r with
      | .inl t => (s, .inl t)
      | .inr l => (s, .inr (⟨h, b⟩ :: l))

/-- Array operations that have not left the queue (R243). -/
def queueFull (p : Prog) : Bool := 8 ≤ (p.queue.filter (fun o => !o.started)).length

def pushOp (k : SlotCtx) (s : State) (o : ArrOp) : State :=
  s.updProg k.cluster true (fun p => { p with queue := p.queue ++ [{ o with fmtw := k.c.fmt, off := progAddr k.c, lslot := k.c.slot, lissue := k.c.issue }] })

/-- The checks MMA and MMAP share, in R254's order; `as'` are the A handles, `banks` the first banks. -/
def mmaIssue (m : MmaFmt) (f : XForm) (as' : List Word) (banks : List Nat) (last : State → Option Cause) (mk : List MOperand → Nat × Nat × Nat → ArrOp)
    (k : SlotCtx) (s : State) : Out :=
  let cls := minorClass m
  let shp := k.p.shp
  match originOf k f.c with
  | none => outTrap s k.ex .bounds
  | some org =>
    if shp = 0 ∨ shpClass shp ≠ cls ∨ fmtClass (fmtA k.c.fmt) ≠ cls ∨ fmtClass (fmtB k.c.fmt) ≠ cls then outTrap s k.ex .shape
    else
      let (s, r) := resolveAll k (s.getBlock k.p.block).core (as' ++ [k.rd s f.b 0]) s
      match r with
      | .inl (.fault x) => outFault s k x
      | .inl _ => .stall s
      | .inr ops =>
        let blk := s.getBlock k.p.block
        let p := fmtPrec k.c.fmt
        let roles := (ops.zip (List.range ops.length)).map (fun x => (x.1, decide (x.2 < as'.length)))
        if ops.any (fun o => !recordFits cls o.bytes) || (m == .int && org.2.2 % 32 != 0) then outTrap s k.ex .shape
        else if roles.any (fun x => operandBad blk x.1.bytes cls p x.2 shp org) then outTrap s k.ex .bounds
        else if banks.any (fun b => !banksOk s k.ctx k.cluster b (tileBanks shp)) then outTrap s k.ex .accUnalloc
        else match last s with
          | some c => outTrap s k.ex c
          | none =>
            if queueFull k.p then .stall s
            else outNone (pushOp k s { (mk ops org) with fmt := m, acc := f.flags.getLsbD 0, sat := f.flags.getLsbD 1, shp := shp })

def mmaEff (m : MmaFmt) (f : XForm) (k : SlotCtx) (s : State) : Out :=
  if k.ex = 0 then outNone s
  else
    let q := (k.sword (bankReg f)).toNat
    mmaIssue m f [k.rd s f.a 0] [q] (fun _ => none)
      (fun ops org => { (default : ArrOp) with kind := .mma, a := ops.getD 0 default, b := ops.getD 1 default, org := org, bank := q }) k s

/-- The pair slot of a program's bound block. -/
def progPair (s : State) (p : Prog) (n : Nat) : PairSlot := (s.getBlock p.block).pairs.get n default

def mmapEff (m : MmaFmt) (f : XForm) (k : SlotCtx) (s : State) : Out :=
  let a := match f.a with | .scalar i => i.toNat | _ => 0
  let q := bankReg f
  let n := bankSlot f
  if k.ex = 0 then outNone s
  else if 30 < a ∨ 30 < q then outTrap s k.ex .bounds
  else
    let b1 := (k.sword q).toNat
    let b2 := (k.sword (q + 1)).toNat
    mmaIssue m f [k.sword a, k.sword (a + 1)] [b1, b2]
      (fun s => let p := progPair s k.p n; if p.cmem.isNone && p.umem.isNone then some .pairBroken else none)
      (fun ops org => { (default : ArrOp) with kind := .mmap n, a := ops.getD 0 default, a2 := ops.getD 1 default, b := ops.getD 2 default, org := org,
                                               bank := b1, bank2 := b2 }) k s

def guideEff (f : XForm) (k : SlotCtx) (s : State) : Out :=
  let q := bankReg f
  let n := (k.rd s f.b 0).toNat
  if k.ex = 0 then outNone s
  else if 30 < q ∨ n = 0 ∨ 32 < n then outTrap s k.ex .bounds
  else
    let b1 := (k.sword q).toNat
    let b2 := (k.sword (q + 1)).toNat
    if !banksOk s k.ctx k.cluster b1 n || !banksOk s k.ctx k.cluster b2 n then outTrap s k.ex .accUnalloc
    else if queueFull k.p then .stall s
    else outNone (pushOp k s { (default : ArrOp) with
      kind := .guide (BitVec.ofNat 32 (k.rdF32 s f.a 0)) n (bankSlot f) (f.flags.getLsbD 0), bank := b1, bank2 := b2 })

def aclrEff (f : XForm) (k : SlotCtx) (s : State) : Out :=
  let b := (k.rd s f.a 0).toNat
  let n := (k.rd s f.b 0).toNat
  if k.ex = 0 then outNone s
  else if !banksOk s k.ctx k.cluster b n then outTrap s k.ex .accUnalloc
  else if queueFull k.p then .stall s
  else outNone (pushOp k s { (default : ArrOp) with kind := .aclr n, bank := b })

/-! ## Running (R243, R250, R254, R258, R259) -/

def setHead (s : State) (cluster : Nat) (f : ArrOp → ArrOp) : State :=
  s.updProg cluster true (fun p => { p with queue := match p.queue with | [] => [] | o :: os => f o :: os })

def updPair (s : State) (blk n : Nat) (f : PairSlot → PairSlot) : State :=
  s.updBlock blk (fun b => { b with pairs := b.pairs.set default n (f (b.pairs.get n default)) })

/-- Set the sticky UNPAIRED bit of a slot in CX.PAIR (R257). -/
def setUnpaired (s : State) (ctx n : Nat) : State := s.updCtx ctx (fun c => { c with pair := c.pair ||| BitVec.twoPow 32 (16 + n) })

/-- Run members with one fetch of B (R258). -/
def runMembers (s : State) (p : Prog) (o : ArrOp) (n : Nat) (ms : List Nat) : State × ArrOp :=
  let (s, b) := fetchOperand s p o o.b false
  ms.foldl (fun x r =>
    let (s, o) := x
    let (s, a) := fetchOperand s p o (if r = 0 then o.a else o.a2) true
    let blk := s.getBlock p.block
    let s := updPair s p.block n (fun q =>
      if r = 0 then { q with cgen := (blk.arrival q.caw).gen, ccur := q.ccur || !o.acc } else { q with ugen := (blk.arrival q.uaw).gen, ucur := q.ucur || !o.acc })
    (s, { o with rows := o.rows ++ mmaRows s p o (if r = 0 then o.bank else o.bank2) a b, ran := o.ran ||| BitVec.ofNat 3 (2 ^ r) })) (s, o)

/-- No member is left to run: those not run are not current; a single run is unpaired. -/
def endPair (s : State) (p : Prog) (o : ArrOp) (n : Nat) : State × ArrOp :=
  let s := updPair s p.block n (fun q => { q with ccur := q.ccur && o.ran.getLsbD 0, ucur := q.ucur && o.ran.getLsbD 1 })
  let one := o.ran.getLsbD 0 != o.ran.getLsbD 1
  (if one then setUnpaired s p.ctx n else s, { o with readAt := true })

/-- One look at a started MMAP. -/
def mmapStep (s : State) (p : Prog) (o : ArrOp) (n : Nat) : State × ArrOp :=
  let blk := s.getBlock p.block
  let q := blk.pairs.get n default
  let ms := o.members q
  let rs := ms.filter (pairReady blk q)
  if o.ran = 0 then
    if ms.isEmpty then endPair s p o n
    else if rs.isEmpty then (s, o)
    else if rs.length = 2 then
      let (s, o) := runMembers s p o n rs
      endPair s p o n
    else if ms.length = 1 then
      let (s, o) := runMembers (setUnpaired s p.ctx n) p o n rs
      endPair s p o n
    else if o.expired then runMembers (setUnpaired s p.ctx n) p o n rs
    else (s, o)
  else
    let other := if o.ran.getLsbD 0 then 1 else 0
    if !ms.contains other then endPair s p o n
    else if rs.contains other then
      let (s, o) := runMembers s p o n [other]
      endPair s p { o with ran := o.ran ||| 4 } n
    else (s, o)

/-- One word of GUIDE. -/
def guideWord (g c u : Word) : FRes :=
  let d := f32.add (f32.unpack c.toNat) (f32.unpack u.toNat).neg 0
  let r := f32.fma (f32.unpack g.toNat) (f32.unpack d.bits) (f32.unpack u.toNat) 0
  ⟨r.bits, d.flags ||| r.flags⟩

/-- A running operation traps: its program ends, with the operation's offset (R242, R259). -/
def arrTrap (s : State) (cluster : Nat) (c : Cause) (o : ArrOp) : State :=
  progTrap (s.updProg cluster true (fun p => { p with queue := p.queue.tail })) cluster true (trapAll 1 c 0) o.off

/-- GUIDE when it runs. -/
def guideRun (s : State) (p : Prog) (o : ArrOp) (g : Word) (n slot : Nat) (condOnly : Bool) : State :=
  let q := progPair s p slot
  if !q.ccur || (!q.ucur && !condOnly) then arrTrap s p.cluster .pairBroken o
  else if !q.ucur then setHead s p.cluster (fun o => { o with readAt := true, ran := 1 })
  else
    let row (j r : Nat) : List FRes := (List.range 64).map (fun c =>
      guideWord g (bankWord s p.ctx p.cluster (o.bank + j) r c) (bankWord s p.ctx p.cluster (o.bank2 + j) r c))
    let all := (List.range n).flatMap (fun j => (List.range 16).map (fun r => (o.bank + j, r, row j r)))
    let fl := all.foldl (fun a x => x.2.2.foldl (fun a y => a ||| y.flags) a) 0
    let s := orFlags s p.gid fl
    if fmtXTrap o.fmtw && fl % 2 == 1 then arrTrap s p.cluster .fpTrap o
    else setHead s p.cluster (fun o => { o with readAt := true, rows := all.map (fun x => (x.1, x.2.1, x.2.2.map (fun y => BitVec.ofNat 32 y.bits))) })

/-- The head operation starts, or a started MMAP looks at its members again. -/
def arrStart (s : State) (cluster : Nat) : State :=
  match s.prog? cluster true with
  | none => s
  | some p =>
    match p.queue with
    | [] => s
    | o :: _ =>
      if p.stopped || o.readAt then s
      else
        let pres (n : Nat) : BitVec 2 := let q := progPair s p n; BitVec.ofNat 2 ((if q.cmem.isSome then 1 else 0) + (if q.umem.isSome then 2 else 0))
        match o.kind with
        | .mma =>
          let (s, a) := fetchOperand s p o o.a true
          let (s, b) := fetchOperand s p o o.b false
          setHead s cluster (fun o => { o with started := true, readAt := true, rows := mmaRows s p o o.bank a b })
        | .aclr n =>
          let rows := (List.range n).flatMap (fun j => (List.range 16).map (fun r => (o.bank + j, r, List.replicate 64 (0 : Word))))
          setHead s cluster (fun o => { o with started := true, readAt := true, rows := rows })
        | .guide g n slot co => guideRun (setHead s cluster (fun o => { o with started := true })) p o g n slot co
        | .mmap n =>
          let o := if o.started then o else { o with started := true, pres := pres n }
          let (s, o) := mmapStep s p o n
          setHead s cluster (fun _ => o)

/-- A row of the running operation is written; with none left the operation completes. -/
def arrFinish (s : State) (cluster pick : Nat) : State :=
  match s.prog? cluster true with
  | none => s
  | some p =>
    match p.queue with
    | [] => s
    | o :: _ =>
      if !o.started then s
      else
        let i := pick % max 1 o.rows.length
        match o.rows[i]? with
        | some (b, r, ws) =>
          let s := writeRow s p.ctx cluster b r ((List.range ws.length).zip ws)
          setHead s cluster (fun o => { o with rows := o.rows.take i ++ o.rows.drop (i + 1) })
        | none =>
          if !o.readAt then s
          else
            let lat (c : Clause) : Clause :=
              if c.issue == o.lissue then (match o.kind with | .mmap _ | .guide _ _ _ _ => c.setLatch o.lslot 0 0 [o.ran.setWidth 32] | _ => c) else c
            reapProg (s.updProg cluster true (fun p => { p with queue := p.queue.tail, clause := p.clause.map lat })) cluster true

/-- The wait for the second member has run out (R258). -/
def pairExpire (s : State) (cluster : Nat) : State :=
  match s.prog? cluster true with
  | none => s
  | some p =>
    match p.queue with
    | [] => s
    | o :: _ =>
      if o.waits (s.getBlock p.block) && (s.getCtx p.ctx).pair.toNat % 65536 ≤ o.waited && !p.stopped then
        arrStart (setHead s cluster (fun o => { o with expired := true })) cluster
      else s

/-! ## PAIR (R256) -/

/-- Bind a role of a slot to the group: status 1 bound, 2 busy, 3 refused. -/
def pairBindNow (k : SlotCtx) (s : State) (n role aw : Nat) : State × Word :=
  let b := s.getBlock k.g.block
  let p := b.pairs.get n default
  let me := some k.g.gidx
  if (p.mem role).isSome && p.mem role != me then (s, 2)
  else if p.mem (1 - role) == me then (s, 3)
  else
    let gen := (b.arrival aw).gen
    (updPair s k.g.block n (fun p =>
      if role = 0 then { p with cmem := me, caw := aw, cgen := gen, ccur := false } else { p with umem := me, uaw := aw, ugen := gen, ucur := false }), 1)

def pairBindEff (f : VForm) (k : SlotCtx) (s : State) : Out :=
  let l := (lowestLane k.ex).getD 0
  let (n, role, aw) := ((k.rd s f.a l).toNat, (k.rd s f.b l).toNat, (k.rd s f.c l).toNat)
  if k.ex = 0 then outNone s
  else if !k.uniform s f.a || !k.uniform s f.b || !k.uniform s f.c then outTrap s k.ex .uniformity
  else if 7 < n ∨ 1 < role then outTrap s k.ex .bounds
  else if aw % 8 ≠ 0 then outTrap s k.ex .misaligned
  else if aw + 8 > (s.getBlock k.g.block).size then outTrap s k.ex .bounds
  else
    let (s, w) := pairBindNow k s n role aw
    outAll k s [w]

def pairUnbindEff (f : VForm) (k : SlotCtx) (s : State) : Out :=
  let n := (k.rd s f.a ((lowestLane k.ex).getD 0)).toNat
  if k.ex = 0 then outNone s
  else if !k.uniform s f.a then outTrap s k.ex .uniformity
  else if 7 < n then outTrap s k.ex .bounds
  else
    let p := (s.getBlock k.g.block).pairs.get n default
    let me := some k.g.gidx
    if p.cmem = me ∨ p.umem = me then
      outAll k (updPair s k.g.block n (fun p => { p with cmem := if p.cmem = me then none else p.cmem, umem := if p.umem = me then none else p.umem })) [1]
    else outAll k s [0]

/-! ## ARD, AWR, TRBP (R260 to R262) -/

/-- Bank, row and rows of ARD and AWR, checked; q registers. A denied bank records its reason (R261, R264). -/
def bandCheck (f : XForm) (w : Bool) (act : Nat → Nat → Nat → Nat → Nat → Out) (k : SlotCtx) (s : State) : Out :=
  let l := (lowestLane k.ex).getD 0
  let b := (k.rd s f.b l).toNat
  let row := (k.rd s f.c l).toNat
  let R := (f.flags.extractLsb' 0 4).toNat + 1
  let q := (64 * R + k.g.hdr.width - 1) / k.g.hdr.width
  let a := match f.a with | .v i => i.toNat | _ => 0
  let covers := k.g.bands.filterMap id |>.filter (fun d => d.bank ≤ b && b < d.bank + d.n && d.row0 ≤ row && row + R ≤ d.row0 + d.h)
  let deny (reason : Nat) : Out := .trap s [] ⟨0, (lanesOf k.sp.mask).map (fun l => (l, ⟨.accUnalloc, 0, b % 256 + 256 * reason⟩))⟩
  if k.ex = 0 then outNone s
  else if !k.uniform s f.b || !k.uniform s f.c then outTrap s k.ex .uniformity
  else if row + R > 16 ∨ a + q > k.g.vregs then outTrap s k.sp.mask .bounds
  else if (s.bank? k.ctx k.cluster b).isNone then deny 0
  else if covers.isEmpty then deny 1
  else if w && covers.all (fun d => !d.w) then deny 2
  else act a b row R q

/-- Elements of the band that an active lane carries: register, lane, element. -/
def bandElems (k : SlotCtx) (R q : Nat) : List (Nat × Nat × Nat) :=
  (List.range q).flatMap (fun j => k.lanes.filterMap (fun l =>
    let e := j * k.g.hdr.width + l
    if e < 64 * R then some (j, l, e) else none))

def convOf (f : XForm) : Nat := (f.flags.extractLsb' 4 2).toNat

def ardConv (conv : Nat) (mode : BitVec 2) (w : Word) : FRes :=
  match conv with
  | 0 => ⟨w.toNat, 0⟩
  | 1 => convert f32 bf16 w.toNat mode
  | 2 => convert f32 f16 w.toNat mode
  | _ => ofToInt (toInt (f32.unpack w.toNat) mode (-2147483648) 2147483647)

def awrConv (conv : Nat) (mode : BitVec 2) (w : Word) : FRes :=
  match conv with
  | 0 => ⟨w.toNat, 0⟩
  | 1 => convert bf16 f32 (w.toNat % 65536) mode
  | 2 => convert f16 f32 (w.toNat % 65536) mode
  | _ => f32.ofInt w.toInt mode

def ardEff (f : XForm) (k : SlotCtx) (s : State) : Out :=
  bandCheck f false (fun a b row R q =>
    let rs := (bandElems k R q).map (fun e =>
      (e.1, e.2.1, ardConv (convOf f) (fmtRMode k.c.fmt) (bankWord s k.ctx k.cluster b (row + e.2.2 / 64) (e.2.2 % 64))))
    let s := orFlags s k.gid (rs.foldl (fun a x => a ||| x.2.2.flags) 0)
    let s := s.updGroup k.gid (fun g => rs.foldl (fun g x => g.setV (a + x.1) x.2.1 (BitVec.ofNat 32 x.2.2.bits)) g)
    let g := s.getGroup k.gid
    .done s (k.lanes.map (fun l => (l, (List.range (min q 4)).map (fun j => g.vreg (a + j) l))))) k s

def awrEff (f : XForm) (k : SlotCtx) (s : State) : Out :=
  bandCheck f true (fun a b row R q =>
    let rs := (bandElems k R q).map (fun e => (e.2.2, awrConv (convOf f) (fmtRMode k.c.fmt) (k.g.vreg (a + e.1) e.2.1)))
    let s := orFlags s k.gid (rs.foldl (fun a x => a ||| x.2.flags) 0)
    outNone ((List.range R).foldl (fun s r => writeRow s k.ctx k.cluster b (row + r)
      ((rs.filter (fun x => x.1 / 64 == r)).map (fun x => (x.1 % 64, BitVec.ofNat 32 x.2.bits)))) s)) k s

def trbpEff (f : XForm) (k : SlotCtx) (s : State) : Out :=
  let d := match f.a with | .v i => i.toNat | _ => 0
  let w := if k.g.hdr.width = 16 then 16 else 32
  let res (l : Nat) : Word :=
    let pb := l / w * w
    BitVec.ofNat 32 ((List.range w).foldl (fun a i =>
      a + (if k.mask.getLsbD (pb + i) && (k.rd s f.b (pb + i)).getLsbD (l - pb) then 2 ^ i else 0)) 0)
  let rs := k.lanes.map (fun l => (l, res l))
  .done (s.updGroup k.gid (fun g => rs.foldl (fun g x => g.setV d x.1 x.2) g)) (rs.map (fun x => (x.1, [x.2])))

/-! ## The meanings -/

/-- PAIR.bind (R256). -/
def execPairBind (f : VForm) (s : State) : Host.Outcome State Fault Refusal :=
  slotStep (.pairBind f) (pairBindEff f) s
/-- PAIR.unbind (R256). -/
def execPairUnbind (f : VForm) (s : State) : Host.Outcome State Fault Refusal :=
  slotStep (.pairUnbind f) (pairUnbindEff f) s
/-- SHAPE (R245). -/
def execShape (f : XForm) (s : State) : Host.Outcome State Fault Refusal :=
  slotStep (.shape f) (shapeEff f) s
/-- ABALLOC (R252). -/
def execAballoc (f : XForm) (s : State) : Host.Outcome State Fault Refusal :=
  slotStep (.aballoc f) (aballocEff f) s
/-- ABFREE (R252). -/
def execAbfree (f : XForm) (s : State) : Host.Outcome State Fault Refusal :=
  slotStep (.abfree f) (abfreeEff f) s
/-- ABGRANT (R252). -/
def execAbgrant (f : XForm) (s : State) : Host.Outcome State Fault Refusal :=
  slotStep (.abgrant f) (abgrantEff f) s
/-- ABGRANT.revoke (R252). -/
def execAbgrantRevoke (f : XForm) (s : State) : Host.Outcome State Fault Refusal :=
  slotStep (.abgrantRevoke f) (abrevokeEff f) s
/-- ACLR (R252). -/
def execAclr (f : XForm) (s : State) : Host.Outcome State Fault Refusal :=
  slotStep (.aclr f) (aclrEff f) s
/-- MMA (R253, R254). -/
def execMma (m : MmaFmt) (f : XForm) (s : State) : Host.Outcome State Fault Refusal :=
  slotStep (.mma m f) (mmaEff m f) s
/-- MMAP (R258). -/
def execMmap (m : MmaFmt) (f : XForm) (s : State) : Host.Outcome State Fault Refusal :=
  slotStep (.mmap m f) (mmapEff m f) s
/-- GUIDE (R259). -/
def execGuide (f : XForm) (s : State) : Host.Outcome State Fault Refusal :=
  slotStep (.guide f) (guideEff f) s
/-- SFENCE (R248). -/
def execSfence (f : XForm) (s : State) : Host.Outcome State Fault Refusal :=
  slotStep (.sfence f) sfenceEff s
/-- ARRAY_OP_START (R243). -/
def execArrayOpStart (cluster : Nat) (s : State) : Host.Outcome State Fault Refusal := .next (arrStart s cluster)
/-- ARRAY_OP_COMPLETE (R250): a row is written, or the operation is complete. -/
def execArrayOpComplete (cluster pick : Nat) (s : State) : Host.Outcome State Fault Refusal := .next (arrFinish s cluster pick)
/-- PAIR_WAIT_EXPIRE (R258). -/
def execPairWaitExpire (cluster : Nat) (s : State) : Host.Outcome State Fault Refusal := .next (pairExpire s cluster)
/-- ARD (R260, R261). -/
def execArd (f : XForm) (s : State) : Host.Outcome State Fault Refusal :=
  slotStep (.ard f) (ardEff f) s
/-- AWR (R260, R261). -/
def execAwr (f : XForm) (s : State) : Host.Outcome State Fault Refusal :=
  slotStep (.awr f) (awrEff f) s
/-- TRBP (R262). -/
def execTrbp (f : XForm) (s : State) : Host.Outcome State Fault Refusal :=
  slotStep (.trbp f) (trbpEff f) s

end Sys2Proof.Machine
end

