-- ==== Sys2Proof/Machine/Trap.lean ====
section
/-! DEFINITION. TRAP, TRET and the reserved major (R302, R305, R349), the context registers with their
fields, rights and writes (R8 to R13, R306, R307), counters and bucket levels (R293 to R295). -/

namespace Sys2Proof.Machine

/-! ## TRAP, TRET, BSAD4 -/

def trapEff (f : YForm) (k : SlotCtx) (s : State) : Out :=
  let T := k.lanes.filter (fun l => k.rd s f.src l != 0)
  if T.isEmpty then outNone s else .trap s [] ⟨5, T.map (fun l => (l, ⟨.illegalOp, 0, f.sysid.toNat⟩))⟩

/-- The transfer is recorded; it acts at the clause's end. A split parked there has recorded it. -/
def tretEff (f : YForm) (k : SlotCtx) (s : State) : Out :=
  match k.park, k.sp.handler with
  | some _, _ => .xfer s []
  | none, none => outTrap s k.sp.mask .tretContext
  | none, some _ => .xfer s (xferWords k s f.src)

/-- A reserved major traps ILLEGAL_OP with sub-cause OPCODE before any other check (R49). -/
def opcodeTrap (k : SlotCtx) (s : State) : State :=
  match k.u with
  | .split _ _ =>
    let (s, c) := markCounted s k.gid k.entry k.ctx k.c
    settleAll (trapWhole s k.gid k.entry false c (encode k.i) (trapAll k.sp.mask .illegalOp 0)) k.gid
  | .seq _ => progTrap (s.count k.ctx 0x0001 1) k.cluster true (trapAll 1 .illegalOp 0) (progAddr k.c)
  | .eng _ => progTrap (s.count k.ctx 0x0001 1) k.cluster false (trapAll 1 .illegalOp 0) (progAddr k.c)

/-! ## Fields of the context registers (R8, R13, R16, R84, R121, R145, R172, R181, R198, R249, R257, R279,
R281, R296, R317) -/

/-- A cell of a rights row: whether it grants reading (R or P) and writing (W or P). -/
structure Cell where
  r : Bool
  w : Bool
  deriving DecidableEq, Repr

def cNo : Cell := ⟨false, false⟩
def cR : Cell := ⟨true, false⟩
def cW : Cell := ⟨false, true⟩
def cRW : Cell := ⟨true, true⟩

/-- A field: bits, whether it is reserved, its cells. `ign`: writes of it are ignored (R121, R296). -/
structure RField where
  lo : Nat
  n : Nat
  res : Bool
  ign : Bool
  op : Cell
  ow : Cell
  au : Cell
  deriving DecidableEq, Repr

def RField.cell (f : RField) (auth : Nat) : Cell := if auth = 1 then f.op else if auth = 2 then f.ow else f.au
def RField.of (f : RField) (v : Nat) : Nat := bitsOf v f.lo f.n

def fld3 (lo n : Nat) (res : Bool) (op ow au : Cell) : RField := ⟨lo, n, res, false, op, ow, au⟩
/-- A field of an owner's register: — | RW | —. -/
def own (lo n : Nat) : RField := fld3 lo n false cNo cRW cNo
def ownRes (lo n : Nat) : RField := fld3 lo n true cNo cRW cNo
/-- A field of a register that the operator sets and the owner reads: P | R | —. -/
def plc (lo n : Nat) : RField := fld3 lo n false cRW cR cNo
def plcRes (lo n : Nat) : RField := fld3 lo n true cRW cR cNo
/-- P | — | —. -/
def opr (lo n : Nat) : RField := fld3 lo n false cRW cNo cNo
def oprRes (lo n : Nat) : RField := fld3 lo n true cRW cNo cNo
/-- P | W | —. -/
def inv (lo n : Nat) (res : Bool) : RField := fld3 lo n res cRW cW cNo
/-- R | R | R. -/
def all3 (lo n : Nat) (res : Bool) : RField := fld3 lo n res cR cR cR

/-- The fields of register `r`. -/
def regFields (r : Nat) : List RField :=
  match r with
  | 0x01 => [all3 24 8 true, all3 20 4 false, fld3 4 16 false cR cNo cR, all3 3 1 false, all3 2 1 false, all3 0 2 false]
  | 0x02 => [fld3 17 15 true cR cRW cNo, own 16 1, fld3 9 7 true cR cRW cNo, fld3 8 1 false cNo cR cNo, fld3 6 2 true cR cRW cNo,
             fld3 5 1 false cR cR cNo, fld3 4 1 false cR cR cNo, ⟨0, 4, false, true, cR, cR, cNo⟩]
  | 0x03 => [own 3 29, ownRes 1 2, own 0 1]
  | 0x04 => [fld3 0 64 false cNo cR cNo]
  | 0x05 => [ownRes 56 8, own 12 44, ownRes 0 12]
  | 0x06 => [own 12 20, ownRes 0 12]
  | 0x07 => [ownRes 42 22, ⟨32, 10, false, true, cNo, cRW, cNo⟩, own 0 32]
  | 0x08 => [ownRes 56 8, own 12 44, ownRes 0 12]
  | 0x09 => [own 0 32]
  | 0x0A => [own 0 32]
  | 0x0B => [plcRes 16 16, plc 0 16]
  | 0x0C => [ownRes 9 23, own 8 1, ownRes 4 4, own 0 4]
  | 0x0D => [ownRes 24 8, own 0 24]
  | 0x0E => [ownRes 13 19, own 0 13]
  | 0x0F => [ownRes 56 8, own 6 50, ownRes 0 6]
  | 0x10 => [ownRes 25 7, own 0 25]
  | 0x11 => [all3 12 20 true, all3 0 12 false]
  | 0x12 => [ownRes 56 8, own 16 40, ownRes 0 16]
  | 0x13 => [oprRes 52 12, opr 12 40, oprRes 0 12]
  | 0x14 => [inv 63 1 false, inv 56 7 true, inv 17 39 false, inv 1 16 true, inv 0 1 false]
  | 0x15 => [plcRes 8 24, plc 0 8]
  | 0x16 => [plcRes 20 12, plc 0 20]
  | 0x17 | 0x18 | 0x19 => [plcRes 62 2, plc 0 62]
  | 0x1A | 0x1C => [oprRes 56 8, opr 12 44, oprRes 1 11, opr 0 1]
  | 0x1B => [opr 0 64]
  | 0x1D => [ownRes 56 8, own 6 50, ownRes 1 5, own 0 1]
  | _ => []

/-- Registers of a group or split: only the executing one's copy is reached (R306). -/
def perGroup (r : Nat) : Bool := r == 0x04 || r == 0x05 || r == 0x06 || r == 0x07 || r == 0x0C

/-! ## Values -/

def Ctx.authReg (c : Ctx) : Nat :=
  c.part * 2 ^ 20 + c.audscope * 2 ^ 4 + (if c.restore then 8 else 0) + (if c.claimed then 4 else 0) + c.auth

def inHandler (s : State) (ctx : Nat) : Bool :=
  s.groups.any (fun g => g.ctx == ctx && (g.live.any (fun e => e.2.handler.isSome) || g.defs.any (fun d => d.handler.isSome)))

def statusReg (s : State) (c : Ctx) : Nat :=
  (if c.dfault then 2 ^ 16 else 0) + (if inHandler s c.num then 2 ^ 8 else 0) + (if c.fabinc then 32 else 0) + (if c.gang then 16 else 0) + c.run

/-- RATE 0x3FFFFF is unlimited (R279). -/
def unlimited : Nat := 0x3FFFFF
def Bucket.levelBits (b : Bucket) : Nat := if b.rate = unlimited then 0x7FFFFFFFFF else (b.level % 2 ^ 40).toNat
def Bucket.reg (b : Bucket) : Nat := b.rate * 2 ^ 40 + b.levelBits

/-- CX.TFRAME of a split. -/
def tframeReg (g : Group) (entry : Nat) : Nat :=
  match (g.split? entry).bind (fun sp => sp.handler) with
  | some f => 2 ^ 63 + f * 2 ^ 56 + g.frameAt f
  | none => 0

/-- The value of a register; `who` is the executing group and entry. -/
def regValue (s : State) (who : Nat × Nat) (c : Ctx) (r : Nat) : Nat :=
  let g := s.getGroup who.1
  match r with
  | 0x01 => c.authReg
  | 0x02 => statusReg s c
  | 0x03 => c.tvec.toNat
  | 0x04 => tframeReg g who.2
  | 0x05 => g.spillBase
  | 0x06 => g.spillLim
  | 0x07 => g.maxDepth * 2 ^ 32 + g.burst
  | 0x08 => c.spillPool.toNat
  | 0x09 => c.spillAreas.toNat
  | 0x0A => c.wdog.toNat
  | 0x0B => c.fair.toNat
  | 0x0C => g.fpstat.toNat
  | 0x0D => c.pair.toNat
  | 0x0E => c.lease.toNat
  | 0x0F => c.htab.toNat
  | 0x10 => c.hlim.toNat
  | 0x11 => c.num
  | 0x12 => c.s1root.toNat
  | 0x13 => c.s2root.toNat
  | 0x15 => c.abquota.toNat
  | 0x16 => c.slice.toNat
  | 0x17 => (c.bkt.getD 0 default).reg
  | 0x18 => (c.bkt.getD 1 default).reg
  | 0x19 => (c.bkt.getD 2 default).reg
  | 0x1A => c.dlog.toNat
  | 0x1B => c.dlogn.toNat
  | 0x1C => c.dmap.toNat
  | 0x1D => c.nlog.toNat
  | _ => 0

/-! ## Rights (R10, R307) -/

/-- Whether an auditor context's scope holds a context (R8, R10). -/
def inScope (a c : Ctx) : Bool := a.audscope == 0xFFFF || a.part == c.part

/-- The authority whose cell applies when one context reaches another; none: out of reach. -/
def cellAuth (s : State) (actor c : Nat) : Option Nat :=
  if !s.liveCtx c then none
  else if actor = c then some 2
  else
    let a := s.getCtx actor
    if a.auth = 1 then (if a.part = (s.getCtx c).part then some 1 else none)
    else if a.auth = 3 then (if inScope a (s.getCtx c) then some 3 else none)
    else none

/-- RDSR's value, or RIGHTS. -/
def readReg (s : State) (who : Nat × Nat) (actor c r : Nat) : Option Nat :=
  match cellAuth s actor c with
  | none => none
  | some a =>
    let fs := (regFields r).filter (fun f => (f.cell a).r)
    if fs.isEmpty || (perGroup r && actor != c) then none
    else
      let v := regValue s who (s.getCtx c) r
      some (fs.foldl (fun x f => x + f.of v * 2 ^ f.lo) 0)

/-- STAGE of a write of CX.TINV against the writer (R181). -/
def tinvOk (s : State) (actor c v : Nat) : Bool :=
  if bitsOf v 63 1 = 1 then (s.getCtx actor).auth == 1 else actor == c

/-- What refuses a write. -/
def writeBad (s : State) (who : Nat × Nat) (actor c r v : Nat) : Option Cause :=
  match cellAuth s actor c with
  | none => some .rights
  | some a =>
    let now := regValue s who (s.getCtx c) r
    if r = 0x04 || (perGroup r && actor != c) then some .rights
    else if (regFields r).any (fun f => !f.ign && f.of v != f.of now && !(f.cell a).w) then some .rights
    else if r = 0x14 && !tinvOk s actor c v then some .rights
    else if (regFields r).any (fun f => f.res && f.of v != 0) then some .reservedField
    else none

/-! ## Writes -/

/-- A write of CX.TINV drops the translations it names from every core; with STAGE 1 the accesses stalled on
the page may retry (R23, R186). -/
def invalidate (s : State) (c v : Nat) : State :=
  let st2 := bitsOf v 63 1 == 1
  let hit (page : Nat) : Bool := bitsOf v 0 1 == 1 || page == bitsOf v 17 39
  { s with vis := { s.vis with
      tlb := s.vis.tlb.filter (fun t => !(t.ctx == c && t.stage2 == st2 && hit t.page))
      stalls := s.vis.stalls.map (fun x => if st2 && x.ctx == c && hit x.ipage then { x with freed := true } else x) } }

/-- A write of CX.HTAB or CX.HLIM invalidates the context's handle-cache entries (R172). -/
def dropHandles (s : State) (c : Nat) : State := { s with vis := { s.vis with hcache := s.vis.hcache.filter (fun e => e.ctx != c) } }

/-- RATE and LEVEL as a write of a bucket gives them. -/
def bucketWrite (v : Nat) : Nat × Int := (bitsOf v 40 22, (BitVec.ofNat 40 v).toInt)

def Ctx.setBucket (c : Ctx) (i v : Nat) : Ctx :=
  { c with bkt := (List.range 3).map (fun j => let b := c.bkt.getD j default; if j = i then { b with pend := some (bucketWrite v) } else b) }

/-- The write of a register that has passed its checks. -/
def writeReg (s : State) (who : Nat × Nat) (c r v : Nat) : State :=
  let cx (f : Ctx → Ctx) : State := s.updCtx c f
  let gr (f : Group → Group) : State := s.updGroup who.1 f
  let w : Word := BitVec.ofNat 32 v
  let d : DWord := BitVec.ofNat 64 v
  match r with
  | 0x02 => cx (fun c => { c with dfault := c.dfault && v / 2 ^ 16 % 2 == 1 })
  | 0x03 => cx (fun c => { c with tvec := w })
  | 0x05 => gr (fun g => { g with spillBase := v })
  | 0x06 => gr (fun g => { g with spillLim := v })
  | 0x07 => gr (fun g => { g with burst := v % 2 ^ 32 })
  | 0x08 => cx (fun c => { c with spillPool := d })
  | 0x09 => cx (fun c => { c with spillAreas := w })
  | 0x0A => cx (fun c => { c with wdog := w })
  | 0x0B => cx (fun c => { c with fair := w })
  | 0x0C => gr (fun g => { g with fpstat := w })
  | 0x0D => cx (fun c => { c with pair := BitVec.ofNat 32 (v % 65536) ||| (c.pair &&& w &&& 0xFF0000) })
  | 0x0E => cx (fun c => { c with lease := BitVec.ofNat 32 (max 64 (min 4096 v)) })
  | 0x0F => dropHandles (cx (fun c => { c with htab := d })) c
  | 0x10 => dropHandles (cx (fun c => { c with hlim := w })) c
  | 0x12 => cx (fun c => { c with s1root := d })
  | 0x13 => cx (fun c => { c with s2root := d })
  | 0x14 => invalidate s c v
  | 0x15 => cx (fun c => { c with abquota := w })
  | 0x16 => cx (fun c => { c with slice := w })
  | 0x17 => cx (fun c => c.setBucket 0 v)
  | 0x18 => cx (fun c => c.setBucket 1 v)
  | 0x19 => cx (fun c => c.setBucket 2 v)
  | 0x1A => cx (fun c => { c with dlog := d })
  | 0x1B => cx (fun c => { c with dlogn := d })
  | 0x1C => cx (fun c => { c with dmap := d })
  | 0x1D => cx (fun c => { c with nlog := d })
  | _ => s

/-! ## RDSR and WRSR (R307) -/

/-- The context that an operand value names. -/
def ctxOperand (k : SlotCtx) (x : Word) : Nat := if x = BitVec.allOnes 32 then k.ctx else x.toNat

def lanesFault (l : Nat) (c : Cause) : Nat × LaneFault := (l, ⟨c, 0, 0⟩)

def rdsrEff (f : YForm) (k : SlotCtx) (s : State) : Out :=
  let r := f.sysid.toNat
  let val (l : Nat) : Option Nat := readReg s (k.gid, k.entry) k.ctx (ctxOperand k (k.rd s f.src l)) r
  let res := k.lanes.filterMap (fun l => (val l).map (fun v =>
    (l, if sysWords r = 2 then [BitVec.ofNat 32 v, BitVec.ofNat 32 (v / 2 ^ 32)] else [BitVec.ofNat 32 v])))
  outFaults s res ((k.lanes.filter (fun l => (val l).isNone)).map (fun l => lanesFault l .rights))

def wrsrEff (f : YWForm) (k : SlotCtx) (s : State) : Out :=
  let r := f.sysid.toNat
  let who := (k.gid, k.entry)
  let one (x : State × List (Nat × LaneFault)) (l : Nat) : State × List (Nat × LaneFault) :=
    let c := ctxOperand k (k.rd s f.ctx l)
    let v := if sysWords r = 2 then k.rd64 s f.src l else (k.rd s f.src l).toNat
    match writeBad x.1 who k.ctx c r v with
    | some cause => (x.1, x.2 ++ [lanesFault l cause])
    | none => (writeReg x.1 who c r v, x.2)
  let (s, fs) := k.lanes.foldl one (s, [])
  outFaults s [] fs

/-! ## CNTRD and BKTRD (R294, R295) -/

/-- A counter's total over an auditor's scope, destroyed contexts included. -/
def scopeTotal (s : State) (a : Ctx) (id : Nat) : Nat :=
  let live := (s.ctxs.filter (fun c => c.run != 7 && inScope a c)).foldl (fun x c => x + c.counters.get id 0) 0
  let gone := (List.range 16).foldl (fun x p => if a.audscope == 0xFFFF || a.part == p then x + s.ctl.destroyed.get (p * 32 + id) 0 else x) 0
  (live + gone) % 2 ^ 64

def cntrdEff (f : YForm) (k : SlotCtx) (s : State) : Out :=
  let id := f.sysid.toNat
  let a := s.getCtx k.ctx
  let val (l : Nat) : Option Nat :=
    let x := k.rd s f.src l
    if x = BitVec.allOnes 32 then some (scopeTotal s a id)
    else if s.liveCtx x.toNat && inScope a (s.getCtx x.toNat) then some ((s.getCtx x.toNat).counters.get id 0) else none
  outFaults s (k.lanes.filterMap (fun l => (val l).map (fun v => (l, [BitVec.ofNat 32 v, BitVec.ofNat 32 (v / 2 ^ 32)]))))
    ((k.lanes.filter (fun l => (val l).isNone)).map (fun l => lanesFault l .rights))

/-- LEVEL, sign-extended to 64 bits. -/
def levelWords (b : Bucket) : List Word :=
  let v := (BitVec.ofNat 40 b.levelBits).signExtend 64
  [v.extractLsb' 0 32, v.extractLsb' 32 32]

def bktrdEff (f : YForm) (k : SlotCtx) (s : State) : Out :=
  let a := s.getCtx k.ctx
  let val (l : Nat) : Option (List Word) :=
    let c := ctxOperand k (k.rd s f.src l)
    let ok := if a.auth = 2 then c == k.ctx else s.liveCtx c && (s.getCtx c).part == a.part
    if ok then some (levelWords ((s.getCtx c).bkt.getD f.sysid.toNat default)) else none
  outFaults s (k.lanes.filterMap (fun l => (val l).map (fun v => (l, v))))
    ((k.lanes.filter (fun l => (val l).isNone)).map (fun l => lanesFault l .rights))

/-! ## Register events -/

/-- A write of a context's register by another context or by itself, outside any group. -/
def regEvent (s : State) (actor c r v : Nat) : State :=
  if !s.liveCtx actor || perGroup r || (writeBad s (0, 0) actor c r v).isSome then s else writeReg s (0, 0) c r v

/-- Accesses stalled on a page that CX.TINV has named try again: one that the page still turns away stalls
anew (R23). -/
def retryStalls (s : State) (ctx ipage : Nat) : State :=
  let hit (x : Stall) : Bool := x.ctx == ctx && x.ipage == ipage && x.freed
  let ws := s.vis.stalls.filter hit
  let s := { s with vis := { s.vis with stalls := s.vis.stalls.filter (fun x => !hit x) } }
  match walk2 s ctx (ipage * 131072) 5 0 (s.getCtx ctx).s2root.toNat with
  | .leaf _ _ _ => s
  | .refused => s
  | _ => ws.foldl (fun s w => noteStall s w.who ctx ipage) s

/-! ## The meanings -/

/-- TRAP (R305). -/
def execTrap (f : YForm) (s : State) : Host.Outcome State Fault Refusal :=
  slotStep (.trap f) (trapEff f) s
/-- TRET (R302). -/
def execTret (f : YForm) (s : State) : Host.Outcome State Fault Refusal :=
  slotStep (.tret f) (tretEff f) s
/-- BSAD4 (R349). -/
def execBsad4 (f : VForm) (s : State) : Host.Outcome State Fault Refusal :=
  match slotCtx s (.bsad4 f) with
  | none => .fault .noIssue
  | some k => .next (opcodeTrap k s)
/-- RDSR (R307). -/
def execRdsr (f : YForm) (s : State) : Host.Outcome State Fault Refusal :=
  slotStep (.rdsr f) (rdsrEff f) s
/-- WRSR (R307). -/
def execWrsr (f : YWForm) (s : State) : Host.Outcome State Fault Refusal :=
  slotStep (.wrsr f) (wrsrEff f) s
/-- CNTRD (R294). -/
def execCntrd (f : YForm) (s : State) : Host.Outcome State Fault Refusal :=
  slotStep (.cntrd f) (cntrdEff f) s
/-- BKTRD (R294). -/
def execBktrd (f : YForm) (s : State) : Host.Outcome State Fault Refusal :=
  slotStep (.bktrd f) (bktrdEff f) s

/-- STALLED_ACCESS_RETRY (R23). -/
def execStalledAccessRetry (ctx ipage : Nat) (s : State) : Host.Outcome State Fault Refusal := .next (retryStalls s ctx ipage)
/-- TINV_STAGE1 (R186): a write of CX.TINV with STAGE = 0. -/
def execTinvStage1 (actor target : Nat) (value : DWord) (s : State) : Host.Outcome State Fault Refusal :=
  .next (if value.getLsbD 63 then s else regEvent s actor target 0x14 value.toNat)
/-- TINV_STAGE2 (R186): a write of CX.TINV with STAGE = 1. -/
def execTinvStage2 (actor target : Nat) (value : DWord) (s : State) : Host.Outcome State Fault Refusal :=
  .next (if value.getLsbD 63 then regEvent s actor target 0x14 value.toNat else s)
/-- HTAB_WRITE (R172): a context's write of its own CX.HTAB or CX.HLIM. -/
def execHtabWrite (actor : Nat) (lim : Bool) (value : DWord) (s : State) : Host.Outcome State Fault Refusal :=
  .next (regEvent s actor actor (if lim then 0x10 else 0x0F) (if lim then value.toNat % 2 ^ 32 else value.toNat))

end Sys2Proof.Machine
end

