-- ==== Sys2Proof/Machine/Evict.lean ====
section
/-! DEFINITION. Context images (R308 to R311, R350), evictions (R24, R214, R238, R263, R315), the destroy
of a context (R20, R24), key slots and the seal table (R18, R19, R316), and a restore from an image
(R25, R312). -/

namespace Sys2Proof.Machine

/-! ## Lengths (R350) -/

def State.groupsOfCtx (s : State) (ctx : Nat) : List Group := s.groups.filter (fun g => g.ctx == ctx)
def State.blocksOfCtx (s : State) (ctx : Nat) : List Block := s.blocks.filter (fun b => b.ctx == ctx)

def sumOf {α : Type} (f : α → Nat) (l : List α) : Nat := l.foldl (fun a x => a + f x) 0

/-- Blocks of a context that wait to be admitted. -/
def pendingBlocks (s : State) (ctx : Nat) : Nat :=
  sumOf (fun l => l.count - l.next) (s.ctl.launches.filter (fun l => l.ctx == ctx)) +
    ((s.blocksOfCtx ctx).filter (fun b => !b.placed)).length

/-- The bound B_i of section i. -/
def sectionBound (s : State) (ctx i : Nat) : Nat :=
  let gs := s.groupsOfCtx ctx
  let seeds := s.seeds.filter (fun k => k.ctx == ctx)
  match i with
  | 1 => sumOf (fun g => g.hdr.vregs8 * 32 * g.hdr.width + 1152 * g.hdr.width + 8192) gs
  | 2 => sumOf (fun b => b.hdr.scratch * 256 + 4096) (s.blocksOfCtx ctx)
  | 3 => 64 * sumOf (fun f => f.recs.length) (s.feeds.filter (fun f => f.ctx == ctx)) + 64 * sumOf (fun k => k.entries.length) seeds +
      64 * sumOf (fun f => f.entries.length) (s.formed.filter (fun f => f.ctx == ctx)) + 64 * seeds.length + 4096
  | 4 => 8192 * (s.mx.forks.filter (fun f => gs.any (fun g => g.gid == f.gid))).length +
      256 * sumOf (fun p => p.queue.length) (s.mx.progs.filter (fun p => p.ctx == ctx)) +
      256 * (s.mx.ops.filter (fun o => o.ctx == ctx && o.stopped)).length
  | 5 => 4160 * (s.mx.banks.filter (fun b => b.ctx == ctx)).length
  | 6 => 64 * (16 * gs.length + 1)
  | 8 => 64 * pendingBlocks s ctx
  | 9 => 16 * sumOf (fun g => g.hdr.width) gs
  | _ => 4096

/-- The lengths of the ten sections of image `id`: each at most its bound. -/
def sectionLens (s : State) (ctx id : Nat) : List Nat :=
  (List.range 10).map (fun i => min (Config.sectionLen id i) (sectionBound s ctx i))

def chunksFor (len : Nat) : Nat := (len + 4095) / 4096
def chunkCount (lens : List Nat) : Nat := sumOf chunksFor lens
/-- Bytes of an image: header, tags, chunks. -/
def imageBytes (chunks : Nat) : Nat := 256 + 4112 * chunks

/-- Size in MiB, saturated (R313). -/
def mib (n : Nat) : Nat := min ((n + 1048575) / 1048576) 0xFFFF

/-! ## Operator buffers -/

/-- Every page of a buffer can be written now. -/
def bufferReach (s : State) (op addr n : Nat) : Bool :=
  addr + n ≤ 2 ^ 56 && (pagesOf addr n).all (fun p => match (translateRaw s controlCore op p.1 .write).2 with | .ok _ _ => true | _ => false)

/-- A buffer of `size` 4 KiB units takes `n` bytes. -/
def bufferFits (s : State) (op addr size n : Nat) : Bool := n ≤ size * 4096 && bufferReach s op addr n

/-- Write bytes to an operator's addresses. -/
def bufferWrite (s : State) (op addr : Nat) (bs : List Byte) : State :=
  (cutSectors (bs.length / 64 + 2) addr bs).foldl (fun s e =>
    let (s, p) := reach op e.1 .write s 0
    match p with
    | some pa => devWrite s pa e.2
    | none => s) s

/-- Read bytes at an operator's addresses; none where a page cannot be reached. -/
def bufferRead (s : State) (op addr n : Nat) : Option (List Byte) :=
  match (readVirt s (.control 0) controlCore op addr n .read).2 with
  | .inr bs => some bs
  | .inl _ => none

/-- Sealed bytes [lo, lo + n) of seal number `id`. -/
def sealedBytes (id lo n : Nat) : List Byte := (List.range n).map (fun i => Config.cipherByte id (lo + i))

/-- Memory at an operator's address holds these sealed bytes. -/
def sealedAt (s : State) (op addr id lo n : Nat) : Bool := bufferRead s op addr n == some (sealedBytes id lo n)

/-! ## Feature blocks in use (R311) -/

def groupFmts (g : Group) : List Word :=
  (g.live.flatMap (fun e => [e.2.fmt, e.2.sfmt] ++ (match e.2.clause with | some c => [c.fmt] ++ c.pend.toList | none => []))) ++
    g.defs.flatMap (fun d => [d.fmt, d.sfmt])

def usesCode (fs : List Word) (codes : List Nat) : Bool := fs.any (fun f => codes.contains (fmtA f) || codes.contains (fmtB f))

def ArrOp.isMma (o : ArrOp) : Bool := match o.kind with | .mma | .mmap _ => true | _ => false
def ArrOp.isPair (o : ArrOp) : Bool := match o.kind with | .mmap _ | .guide _ _ _ _ => true | _ => false

/-- Entries of a table that hold a listed byte. -/
def listedEntries (s : State) (table log : Nat) : List Nat :=
  distinct ((s.mem.filter (fun e => table ≤ e.1 && e.1 < table + 2 ^ log)).map (fun e => (e.1 - table) / 8))

/-- A stage-2 leaf of a context names second-tier frames. -/
def secondTier (s : State) (ctx : Nat) : Nat → Nat → Nat → Bool
  | 0, _, _ => false
  | fuel + 1, l, table =>
    (listedEntries s table (tableLog true l)).any (fun i =>
      let e := s.rdNat (table + 8 * i) 8
      let addr := bitsOf e 7 45 * 128
      entryOk s ctx true l e && bitsOf e 0 1 == 1 &&
        (if bitsOf e 1 1 = 1 then 0x8000000000 ≤ addr && addr < 0x18000000000 else secondTier s ctx fuel (l + 1) addr))

def liveBlocks (s : State) (ctx : Nat) : BitVec 32 :=
  let gs := s.groupsOfCtx ctx
  let ps := s.mx.progs.filter (fun p => p.ctx == ctx)
  let qs := ps.flatMap (fun p => p.queue)
  let fs := gs.flatMap groupFmts ++ ps.map (fun p => p.fmt)
  let bit (n : Nat) (b : Bool) : Nat := if b then 2 ^ n else 0
  BitVec.ofNat 32 (
    1 + bit 1 (usesCode fs [4] || qs.any (fun o => o.isMma && o.fmt == .lns6)) +
      bit 2 (usesCode fs [2, 3] || qs.any (fun o => o.isMma && o.fmt == .int)) +
      bit 3 ((s.blocksOfCtx ctx).any (fun b => b.pairs.any (fun e => e.2.cmem.isSome || e.2.umem.isSome)) || qs.any ArrOp.isPair) +
      bit 4 (gs.any (fun g => !g.plane.isEmpty) || (s.ctl.launches.any (fun l => l.ctx == ctx && l.hdr.planes != 1)) || gs.any (fun g => g.hdr.planes != 1)) +
      bit 5 (s.getCtx ctx).gang + bit 6 ((s.getCtx ctx).s2root != 0 && secondTier s ctx 5 0 (s.getCtx ctx).s2root.toNat) +
      bit 7 (s.ctl.queues.any (fun q => q.ctx == ctx && q.pasidv)))

/-! ## Image headers (R308) -/

/-- What a gang image's header says of its areas. -/
structure GangPart where
  clrBase : Nat
  clrMax : Nat
  wfBase : Nat
  wfMax : Nat

def sectionTable (lens : List Nat) : List Byte :=
  (List.range 16).flatMap (fun i => if i < 10 then bytesOfNat 4 (sumOf chunksFor (lens.take i)) ++ bytesOfNat 4 (lens.getD i 0) else List.replicate 8 0)

def imageHeader (s : State) (ctx kind tenant ctrbase chunks : Nat) (live : BitVec 32) (lens : List Nat) (g : GangPart) : List Byte :=
  bytesOfNat 4 0x53394349 ++ bytesOfNat 2 1 ++ bytesOfNat 2 kind ++ bytesOfNat 8 tenant ++ bytesOfNat 4 s.boot.cfg.inst ++ bytesOfNat 4 0 ++
    bytesOfNat 8 ctrbase ++ bytesOfNat 4 chunks ++ bytesOfNat 4 s.boot.cfg.features.toNat ++ bytesOfNat 4 live.toNat ++ bytesOfNat 4 ctx ++
    sectionTable lens ++ bytesOfNat 8 g.clrBase ++ bytesOfNat 4 g.clrMax ++ bytesOfNat 8 g.wfBase ++ bytesOfNat 4 g.wfMax ++ List.replicate 56 0

/-! ## Key slots (R18, R19) -/

def State.keySlot? (s : State) (n : Nat) : Option KeySlot := s.ctl.keySlots.find? (fun k => k.slot == n)

/-- Change a slot; one whose counts are both zero is zeroed and freed. -/
def updSlot (s : State) (n : Option Nat) (f : KeySlot → KeySlot) : State :=
  { s with ctl := { s.ctl with keySlots :=
      (updWhere (fun k => some k.slot == n) f s.ctl.keySlots).filter (fun k => k.bound != 0 || k.pend != 0) } }

/-- Key slots a partition may hold: its quota; the pool has what fixed partitions leave (R287). -/
def keyQuota (s : State) (part : Nat) : Nat :=
  if part = 0 then 4096 - sumOf (fun p => p.keys) (s.ctl.partitions.filter (fun p => p.part != 0))
  else match s.ctl.partitions.find? (fun p => p.part == part) with
    | some p => p.keys
    | none => 0

/-- The lowest free slot number within the partition's quota. -/
def freeKeySlot (s : State) (part : Nat) : Option Nat :=
  if keyQuota s part ≤ (s.ctl.keySlots.filter (fun k => k.part == part)).length then none
  else (List.range 4096).find? (fun n => !s.ctl.keySlots.any (fun k => k.slot == n))

def tenantOf (s : State) (c : Ctx) : Nat := ((c.keySlot.bind s.keySlot?).map (fun k => k.tenant)).getD 0
def keyOf (s : State) (c : Ctx) : BitVec 256 := ((c.keySlot.bind s.keySlot?).map (fun k => k.key)).getD 0

/-! ## System acts that wait (R313) -/

def statusWord (st val : Nat) : Word := BitVec.ofNat 32 (st * 65536 + val)

/-- The acts on a context get their result. -/
def doneActs (s : State) (ctx : Nat) (w : Word) : State :=
  { s with ctl := { s.ctl with acts := updWhere (fun a => a.ctx == ctx && a.done.isNone) (fun a => { a with done := some w }) s.ctl.acts } }

def actBusy (s : State) (ctx : Nat) : Bool := s.ctl.acts.any (fun a => a.ctx == ctx && a.done.isNone)

/-! ## Halting -/

def setHalt (s : State) (ctx : Nat) (on : Bool) : State :=
  { s with groups := s.groups.map (fun g => if g.ctx == ctx && g.resident then { g with halted := on } else g)
           mx := { s.mx with progs := s.mx.progs.map (fun p => if p.ctx == ctx then { p with stopped := on } else p) } }

/-! ## One block leaves its core -/

/-- Remove what an evicted group leaves on the chip. -/
def evictGroup (s : State) (g : Group) : State :=
  let resv (r : Resv) : Resv := match r with | .none => .none | _ => .lost
  let s := s.updGroup g.gid (fun g => { g with resident := false, halted := false, wdog := 0, resv := g.resv.map (fun e => (e.1, resv e.2)) })
  let mine (a : Agent) : Bool := match a with | .unit (.split gid _) => gid == g.gid | _ => false
  let away := awayCluster g.gid
  let cl := clusterOf g.core
  { s with
    vis := { s.vis with mons := s.vis.mons.filter (fun e => e.gid != g.gid), resvs := s.vis.resvs.filter (fun e => e.gid != g.gid),
                        stalls := s.vis.stalls.filter (fun x => !mine x.who) }
    mx := { s.mx with
      stores := s.mx.stores.map (fun c => if s.mx.progs.any (fun p => p.gid == g.gid && p.cluster == c.cluster && p.isSeq == c.isSeq) then { c with cluster := away } else c)
      progs := s.mx.progs.map (fun p => if p.gid == g.gid then { p with cluster := away, stopped := true } else p)
      forks := s.mx.forks.map (fun f => if f.gid == g.gid then { f with cluster := away } else f)
      opCache := s.mx.opCache.filter (fun e => !(e.cluster == cl && e.ctx == g.ctx)) } }

/-- Copies and handle-cache entries of a context on a core go (R20, R214). -/
def dropCore (s : State) (ctx core : Nat) : State :=
  { s with vis := { s.vis with
      copies := s.vis.copies.filter (fun c => !(c.core == core && s.vis.frameOwner.get (c.sector / 2048) 0 == ctx))
      hcache := s.vis.hcache.filter (fun e => !(e.core == core && e.ctx == ctx))
      tlb := s.vis.tlb.filter (fun t => !(t.core == core && t.ctx == ctx)) } }

/-- Banks of a context on a cluster with no resident group of it left go with it (R249, R263). -/
def liftBanks (s : State) (ctx cluster : Nat) : State :=
  if s.groups.any (fun g => g.ctx == ctx && g.resident && clusterOf g.core == cluster) then s
  else { s with mx := { s.mx with banks := s.mx.banks.map (fun b => if b.ctx == ctx && b.cluster == cluster then { b with placed := false } else b) } }

def evictBlock (s : State) (id : Nat) : State :=
  match s.block? id with
  | none => s
  | some b =>
    let s := (s.groupsOf id).foldl evictGroup s
    let s := s.updBlock id (fun b => { b with placed := false })
    liftBanks (dropCore s b.ctx b.core) b.ctx (clusterOf b.core)

/-- The blocks go to the head of their partition's list (R280, R281, R315). -/
def toHead (s : State) (ctx : Nat) (ids : List Nat) : State :=
  let new := ids.map (fun i => ((s.getCtx ctx).part, Pending.block i))
  { s with ctl := { s.ctl with pendings := new ++ s.ctl.pendings.filter (fun p => !new.contains p) } }

/-- Unplaced blocks of a context, in block order. -/
def savedBlocks (s : State) (ctx : Nat) : List Nat :=
  ((s.blocksOfCtx ctx).filter (fun b => !b.placed)).map (fun b => b.id)

/-! ## When an eviction finishes (R214, R225, R263) -/

def timesPassed (s : State) (gw ls : Nat) : Bool := gw ≤ s.now && (ls == 0 || ls + 2 ≤ windowOf s.now)

def groupQuiet (s : State) (window : Bool) (g : Group) : Bool :=
  g.queue.isEmpty && g.loads.isEmpty &&
    g.live.all (fun e => timesPassed s e.2.maxgwct (if window then e.2.lastsend else 0)) &&
    g.defs.all (fun d => timesPassed s d.maxgwct (if window then d.lastsend else 0))

/-- No array operation of a program is part-way. -/
def progQuiet (p : Prog) : Bool :=
  p.queue.all (fun o => !o.started || (o.rows.isEmpty && !o.readAt && (match o.kind with | .mmap _ => true | _ => false)))

/-- The blocks an eviction takes off the cores. -/
def leavingBlocks (s : State) (ctx : Nat) (l : Leave) : List Nat :=
  match l with
  | .slice bs _ => bs
  | _ => ((s.blocksOfCtx ctx).filter (fun b => b.placed)).map (fun b => b.id)

def leaveReady (s : State) (ctx : Nat) (l : Leave) (bs : List Nat) : Bool :=
  bs.all (fun b => (s.groupsOf b).all (groupQuiet s true)) &&
    s.mx.progs.all (fun p => !bs.contains p.block || (progQuiet p && p.ops.isEmpty)) &&
    s.mx.ops.all (fun o => o.ctx != ctx || (match l with | .slice _ _ => !bs.contains o.block | _ => false))

/-! ## Sealing (R308, R309) -/

/-- Tokens that no F register holds read EXPIRED after an eviction (R225). -/
def expireTokens (s : State) (ctx : Nat) : State :=
  { s with mx := { s.mx with tokens := s.mx.tokens.filter (fun t => t.ctx != ctx || t.st == .pending || s.fHolds ctx t.cluster t.serial) } }

/-- What the image of a context holds, as it now stands. -/
def snapshot (s : State) (ctx kind id ctrbase chunks : Nat) (header : List Byte) (live : BitVec 32) : Image :=
  let c := s.getCtx ctx
  let gs := s.groupsOfCtx ctx
  { id := id, top := s.nextId, ctrbase := ctrbase, chunks := chunks, header := header, kind := kind, tenant := tenantOf s c, key := keyOf s c,
    live := live, fabinc := c.fabinc, clr := [], wf := [], ctx := c, groups := gs, blocks := s.blocksOfCtx ctx,
    feeds := s.feeds.filter (fun f => f.ctx == ctx), seeds := s.seeds.filter (fun k => k.ctx == ctx),
    formed := s.formed.filter (fun f => f.ctx == ctx), forks := s.mx.forks.filter (fun f => gs.any (fun g => g.gid == f.gid)),
    progs := s.mx.progs.filter (fun p => p.ctx == ctx), stores := s.mx.stores.filter (fun c => 1000 ≤ c.cluster && c.ctx == ctx),
    ops := s.mx.ops.filter (fun o => o.ctx == ctx), banks := s.mx.banks.filter (fun b => b.ctx == ctx),
    tokens := s.mx.tokens.filter (fun t => t.ctx == ctx), launches := s.ctl.launches.filter (fun l => l.ctx == ctx),
    pendings := (s.ctl.pendings.filter (fun p => match p.2 with
      | .launch id => s.ctl.launches.any (fun l => l.id == id && l.ctx == ctx)
      | .block _ => false)).map (fun p => p.2) }

/-- Seal a context into its buffer: the seal counter advances, the bytes are written, the contents kept. -/
def sealImage (s : State) (ctx kind : Nat) (p : SealPlan) : State × Image :=
  let c := s.getCtx ctx
  let ctr := s.boot.sealCtr
  let n := chunkCount p.lens
  let live := liveBlocks s ctx
  let h := imageHeader s ctx kind (tenantOf s c) ctr n live p.lens ⟨0, 0, 0, 0⟩
  let im := snapshot s ctx kind p.id ctr n h live
  let s := { s with boot := { s.boot with sealCtr := ctr + n } }
  let s := bufferWrite s p.op p.addr (h ++ sealedBytes p.id 0 (4112 * n))
  ({ s with vault := im :: s.vault.filter (fun x => x.id != p.id) }, im)

/-! ## Destroy (R20, R24) -/

/-- Zero the spill areas of a context's groups. -/
def scrubSpill (s : State) (ctx : Nat) : State :=
  (s.groupsOfCtx ctx).foldl (fun s g =>
    if g.area.isNone then s
    else (pagesOf g.spillBase g.spillLim).foldl (fun s p =>
      let n := min (131072 - p.1 % 131072) (g.spillBase + g.spillLim - p.1)
      match (translateRaw s controlCore ctx p.1 .write).2 with
      | .ok pa _ => { s with mem := s.mem.clearRange pa (pa + n) }
      | _ => s) s) s

/-- Take everything a context holds off the device, its queues apart, and discard what it had in flight. -/
def removeCtx (s : State) (ctx : Nat) : State :=
  let gids := (s.groupsOfCtx ctx).map (fun g => g.gid)
  let ops := (s.mx.ops.filter (fun o => o.ctx == ctx)).map (fun o => o.id)
  let lids := (s.ctl.launches.filter (fun l => l.ctx == ctx)).map (fun l => l.id)
  let bids := (s.blocksOfCtx ctx).map (fun b => b.id)
  let mine (a : Agent) : Bool := match a with
    | .unit (.split g _) => gids.contains g
    | .op i => ops.contains i
    | _ => false
  { s with
    groups := s.groups.filter (fun g => g.ctx != ctx)
    blocks := s.blocks.filter (fun b => b.ctx != ctx)
    seeds := s.seeds.filter (fun k => k.ctx != ctx)
    formed := s.formed.filter (fun f => f.ctx != ctx)
    feeds := s.feeds.filter (fun f => f.ctx != ctx)
    vis := { s.vis with
      mons := s.vis.mons.filter (fun e => !gids.contains e.gid), resvs := s.vis.resvs.filter (fun e => !gids.contains e.gid)
      stalls := s.vis.stalls.filter (fun x => x.ctx != ctx && !mine x.who), owned := s.vis.owned.filter (fun o => !ops.contains o.op)
      copies := s.vis.copies.filter (fun c => s.vis.frameOwner.get (c.sector / 2048) 0 != ctx)
      tlb := s.vis.tlb.filter (fun t => t.ctx != ctx), hcache := s.vis.hcache.filter (fun e => e.ctx != ctx) }
    mx := { s.mx with
      ops := s.mx.ops.filter (fun o => o.ctx != ctx), tokens := s.mx.tokens.filter (fun t => t.ctx != ctx)
      forks := s.mx.forks.filter (fun f => !gids.contains f.gid), progs := s.mx.progs.filter (fun p => p.ctx != ctx)
      stores := s.mx.stores.filter (fun c => c.ctx != ctx), banks := s.mx.banks.filter (fun b => b.ctx != ctx)
      opCache := s.mx.opCache.filter (fun e => e.ctx != ctx) }
    ctl := { s.ctl with
      launches := s.ctl.launches.filter (fun l => l.ctx != ctx), waitingHdr := s.ctl.waitingHdr.filter (fun l => l.ctx != ctx)
      pendings := s.ctl.pendings.filter (fun p => match p.2 with | .launch i => !lids.contains i | .block i => !bids.contains i)
      runs := s.ctl.runs.filter (fun r => r.ctx != ctx), heldRuns := s.ctl.heldRuns.filter (fun r => r.ctx != ctx) }
    fab := { s.fab with ports := s.fab.ports.map (fun p => { p with outbox := p.outbox.filter (fun x => !ops.contains x.op) }) } }

/-- Counters of a destroyed context stay in its partition's totals (R295). -/
def keepCounters (s : State) (ctx : Nat) : State :=
  let c := s.getCtx ctx
  { s with ctl := { s.ctl with destroyed := c.counters.foldl (fun m e =>
      m.set 0 (c.part * 32 + e.1) ((m.get (c.part * 32 + e.1) 0 + e.2) % 2 ^ 64)) s.ctl.destroyed } }

/-- Destroy a context. `pend`: its slot reference passes to the slot's restore-pending count. -/
def destroyCtx (s : State) (ctx : Nat) (pend : Bool) : State :=
  let c := s.getCtx ctx
  let s := keepCounters (removeCtx (scrubSpill s ctx) ctx) ctx
  let s := { s with ctl := { s.ctl with queues := s.ctl.queues.filter (fun q => q.ctx != ctx) } }
  let s := updSlot s c.keySlot (fun k => { k with bound := k.bound - 1, pend := if pend then k.pend + 1 else k.pend })
  let s := s.updCtx ctx (fun c => { c with run := 7, leave := none, keySlot := none, sliceStart := none, lastWake := none, flagged := [], counters := [] })
  postOwner s ctx 0 ⟨ctx, 2, 0, 0, 0⟩

/-! ## EVICTION_COMPLETE -/

/-- A sealed image of EVICT.2 enters the seal table; its context goes (R25, R316). -/
def sealAway (s : State) (ctx : Nat) (p : SealPlan) : State :=
  let c := s.getCtx ctx
  let (s, im) := sealImage (expireTokens s ctx) ctx 1 p
  let s := { s with ctl := { s.ctl with seals := s.ctl.seals ++ [⟨im.ctrbase, c.keySlot, c.part⟩] } }
  doneActs (destroyCtx s ctx true) ctx (statusWord 0 0)

def finishLeave (s : State) (ctx : Nat) (l : Leave) (bs : List Nat) : State :=
  let s := (bs.foldl evictBlock s).count ctx 0x0008 1
  let s := unmarkResident s ctx
  let s := s.updCtx ctx (fun c => { c with leave := none })
  match l with
  | .evict hold p =>
    let (s, _) := sealImage (expireTokens s ctx) ctx 0 p
    let s := s.updCtx ctx (fun c => { c with run := if hold then 3 else 1 })
    let s := if hold then s else toHead s ctx (savedBlocks s ctx)
    doneActs s ctx (statusWord 0 0)
  | .seal p => sealAway s ctx p
  | .desched (some p) =>
    let (s, _) := sealImage (expireTokens s ctx) ctx 0 p
    if (s.getCtx ctx).run = 4 then s else toHead s ctx (savedBlocks s ctx)
  | .slice bs p =>
    let s := bufferWrite s p.op p.addr (sealedBytes p.id 0 (imageBytes (chunkCount p.lens)))
    setHalt (toHead s ctx bs) ctx false
  | _ => s

/-- The eviction of a context finishes, if it may. -/
def evictionDone (s : State) (ctx : Nat) : State :=
  match (s.getCtx ctx).leave with
  | none => s
  | some .switch => s
  | some (.desched none) => s
  | some l =>
    let bs := leavingBlocks s ctx l
    if leaveReady s ctx l bs then finishLeave s ctx l bs else s

/-- EVICTION_COMPLETE (R214). -/
def execEvictionComplete (ctx : Nat) (s : State) : Host.Outcome State Fault Refusal := .next (evictionDone s ctx)

/-- Plan the sealing of a context into a buffer; the bytes needed where it is too small. -/
def planSeal (s : State) (ctx op addr size extra : Nat) : Nat ⊕ (State × SealPlan) :=
  let id := s.nextId
  let lens := sectionLens s ctx id
  let n := imageBytes (chunkCount lens + extra)
  if bufferFits s op addr size n then .inr ({ s with nextId := id + 1 }, ⟨id, lens, op, addr⟩) else .inl n

/-- The plan of an eviction that the device itself makes, into the save area; with none the operator gets
SAVE_FULL (R315). -/
def planSave (s : State) (ctx : Nat) : State × Option SealPlan :=
  let c := s.getCtx ctx
  match s.operatorOf c.part with
  | none => (s, none)
  | some op =>
    match planSeal s ctx op c.saveBase c.saveSize 0 with
    | .inr (s, p) => (s, some p)
    | .inl n => (postOperator s op ⟨ctx, 0x17, 0, 0, (n + 4095) / 4096⟩, none)

/-! ## Restore (R25, R312) -/

/-- The kept contents of an image whose header lies at an operator's address. -/
def imageAt (s : State) (op addr : Nat) : Option Image :=
  match bufferRead s op addr 256 with
  | none => none
  | some h => s.vault.find? (fun im => im.header == h)

/-- Check 1 of R312 on a header. -/
def headerKnown (h : List Byte) : Bool :=
  leAt h 0 4 == 0x53394349 && leAt h 4 2 == 1 && leAt h 6 2 ≤ 2 && allZero h 20 4 && allZero h 128 48 && allZero h 200 56 &&
    (leAt h 6 2 == 2 || allZero h 176 24)

/-- Check 3: the lowest live block that this part lacks. -/
def missingBlock (s : State) (h : List Byte) : Option Nat :=
  (List.range 32).find? (fun b => bitsOf (leAt h 40 4) b 1 == 1 && !s.boot.cfg.features.getLsbD b)

/-- Check 4 on the chunks: every byte of the image as it was sealed, under the slot's key. -/
def tagsOk (s : State) (op addr size : Nat) (im : Image) (key : BitVec 256) : Bool :=
  im.key == key && imageBytes im.chunks ≤ size * 4096 && sealedAt s op (addr + 256) im.id 0 (4112 * im.chunks)

/-- The contents of an image under new numbers: `d` added to each, and a new context number. -/
def renumberGroup (d ctx : Nat) (g : Group) : Group :=
  { g with gid := g.gid + d, ctx := ctx, block := g.block + d, launch := if g.launch = 0 then 0 else g.launch + d, resident := false, halted := false }
def renumberBlock (d ctx : Nat) (b : Block) : Block :=
  { b with id := b.id + d, ctx := ctx, launch := if b.launch = 0 then 0 else b.launch + d, groups := b.groups.map (fun g => g + d), placed := false }
def renumberProg (d ctx : Nat) (p : Prog) : Prog :=
  { p with id := p.id + d, ctx := ctx, block := p.block + d, gid := p.gid + d, cluster := awayCluster (p.gid + d), stopped := true, ops := p.ops.map (fun o => o + d) }
def renumberOp (d ctx : Nat) (o : EOp) : EOp :=
  { o with id := o.id + d, ctx := ctx, block := o.block + d, gid := o.gid + d, stopped := true }
def renumberPending (d : Nat) : Pending → Pending
  | .launch i => .launch (i + d)
  | .block i => .block (i + d)

/-- The context record after a restore: what travels comes from the image, what the placement and the claim
fix stays (R315). -/
def restoredCtx (c : Ctx) (im : Image) (slot : Option Nat) (run : Nat) : Ctx :=
  { im.ctx with
    num := c.num, auth := c.auth, part := c.part, audscope := 0, restore := false, claimed := true, run := run, gang := c.gang, gangPos := c.gangPos,
    gangSize := c.gangSize, jobTag := c.jobTag, s2root := c.s2root, dlog := c.dlog, dlogn := c.dlogn, dmap := c.dmap, saveBase := c.saveBase,
    saveSize := c.saveSize, tenant := c.tenant, clusters := c.clusters, image := none, imgSize := 0, acceptInc := c.acceptInc, keySlot := slot,
    fabinc := im.fabinc, sliceStart := none, lastWake := none, flagged := [], leave := none }

/-- Put an image's contents into a shell: its blocks wait at the head of the list (R312). -/
def restoreInto (s : State) (ctx : Nat) (im : Image) (slot : Option Nat) (run : Nat) : State :=
  let d := s.nextId
  let part := (s.getCtx ctx).part
  let ps := im.blocks.map (fun b => (part, Pending.block (b.id + d))) ++ im.pendings.map (fun p => (part, renumberPending d p))
  let s := s.updCtx ctx (fun c => restoredCtx c im slot run)
  { s with
    nextId := d + im.top + 1
    groups := s.groups ++ im.groups.map (renumberGroup d ctx)
    blocks := s.blocks ++ im.blocks.map (renumberBlock d ctx)
    feeds := s.feeds ++ im.feeds.map (fun f => { f with ctx := ctx })
    seeds := s.seeds ++ im.seeds.map (fun k => { k with ctx := ctx })
    formed := s.formed ++ im.formed.map (fun f => { f with ctx := ctx })
    mx := { s.mx with
      forks := s.mx.forks ++ im.forks.map (fun f => { f with id := f.id + d, gid := f.gid + d, cluster := awayCluster (f.gid + d) })
      progs := s.mx.progs ++ im.progs.map (renumberProg d ctx)
      stores := s.mx.stores ++ im.stores.map (fun c => { c with ctx := ctx, cluster := c.cluster + d })
      ops := s.mx.ops ++ im.ops.map (renumberOp d ctx)
      banks := s.mx.banks ++ im.banks.map (fun b => { b with ctx := ctx, placed := false })
      tokens := s.mx.tokens ++ im.tokens.map (fun t => { t with ctx := ctx }) }
    ctl := { s.ctl with
      launches := s.ctl.launches ++ im.launches.map (fun l => { l with id := l.id + d, ctx := ctx, src := .instr })
      pendings := ps ++ s.ctl.pendings } }

/-- The entry of the seal table that an image of this device has. -/
def sealOf (s : State) (im : Image) : Option SealEntry :=
  if leAt im.header 16 4 = s.boot.cfg.inst then s.ctl.seals.find? (fun e => e.ctrbase == im.ctrbase) else none

/-- Release an image's entry: its slot's restore-pending count falls (R316). -/
def releaseSeal (s : State) (ctrbase : Nat) : State :=
  match s.ctl.seals.find? (fun e => e.ctrbase == ctrbase) with
  | none => s
  | some e => updSlot { s with ctl := { s.ctl with seals := s.ctl.seals.filter (fun x => x.ctrbase != ctrbase) } } e.keySlot (fun k => { k with pend := k.pend - 1 })

/-- A refused restore: the operator learns of it, and the owner who tried to claim (R312). -/
def refuseRestore (s : State) (ctx st val : Nat) : State × Word :=
  let detail := if st = 8 then val else 0x100 + st
  let s := postToOperator s ctx ⟨ctx, 4, 0, detail, 0⟩
  (postOwner s ctx 0 ⟨ctx, 4, 0, detail, 0⟩, statusWord st val)

/-- A shell is claimed with a key slot (R21), or restored with it (R25). -/
def claimShell (s : State) (ctx slot : Nat) (acceptInc : Bool) : State × Word :=
  let c := s.getCtx ctx
  let bind (s : State) : State := updSlot s (some slot) (fun k => { k with bound := k.bound + 1 })
  match c.image with
  | none =>
    let s := (bind s).updCtx ctx (fun c => { c with claimed := true, run := 1, keySlot := some slot, acceptInc := acceptInc })
    (postToOperator s ctx ⟨ctx, 3, 0, 0, 0⟩, statusWord 0 0)
  | some addr =>
    let op := (s.operatorOf c.part).getD 0
    let k := (s.keySlot? slot).getD default
    match bufferRead s op addr 256 with
    | none => refuseRestore s ctx 0xA 0
    | some h =>
      if !headerKnown h then refuseRestore s ctx 9 0
      else if leAt h 8 8 ≠ k.tenant then refuseRestore s ctx 0xB 0
      else match missingBlock s h with
      | some b => refuseRestore s ctx 8 b
      | none =>
        if leAt h 6 2 = 2 then
          -- a gang image: GSWITCH.1 restores it (R321)
          let s := (bind s).updCtx ctx (fun c => { c with claimed := true, run := 5, keySlot := some slot, acceptInc := acceptInc })
          (postToOperator s ctx ⟨ctx, 3, 0, 0, 0⟩, statusWord 0 0)
        else match imageAt s op addr with
        | none => refuseRestore s ctx 0xA 0
        | some im =>
          if !tagsOk s op addr c.imgSize im k.key then refuseRestore s ctx 0xA 0
          else
            let s := bind s
            let s := match sealOf s im with | some e => releaseSeal s e.ctrbase | none => s
            let s := (restoreInto s ctx im (some slot) 1).updCtx ctx (fun c => { c with acceptInc := acceptInc })
            let s := postToOperator s ctx ⟨ctx, 5, 0, 0, 0⟩
            (postOwner s ctx 0 ⟨ctx, 5, 0, 0, 0⟩, statusWord 0 0)

end Sys2Proof.Machine
end

