-- ==== Sys2Proof/Machine/System.lean ====
section
/-! DEFINITION. The system acts PLACE, EVICT and KEYBIND (R21 to R25, R313 to R316), the request form of
KEYBIND, and new contexts (R7, R84, R172, R198, R249, R257, R279, R281). -/

namespace Sys2Proof.Machine

/-! ## New contexts -/

def Bucket.reset : Bucket := ⟨unlimited, 0, 0, none⟩

/-- A context with every register at reset. -/
def Ctx.fresh (num auth part : Nat) : Ctx :=
  { (default : Ctx) with
      num := num, auth := auth, part := part, wdog := 0x01000000, fair := 2048, pair := 4096, lease := 256, abquota := 128, slice := 2000,
      bkt := [Bucket.reset, Bucket.reset, Bucket.reset], clusters := BitVec.allOnes 72 }

/-- The lowest number of no live context. -/
def freeCtx (s : State) : Option Nat := (List.range 4096).find? (fun n => !s.liveCtx n)

def addCtx (s : State) (c : Ctx) : State := { s with ctxs := s.ctxs.filter (fun x => x.num != c.num) ++ [c] }

/-- Clusters of a partition (R287, R288). -/
def partClusters (s : State) (part : Nat) : BitVec 72 :=
  if part = 0 then ~~~((s.ctl.partitions.filter (fun p => p.part != 0)).foldl (fun m p => m ||| p.clusters) 0)
  else match s.ctl.partitions.find? (fun p => p.part == part) with
    | some p => p.clusters
    | none => 0

/-! ## Acts of one lane -/

/-- The result of an act on one lane: its word, a trap of the lane, an eviction to wait for, or a stall of the
access to a record. -/
inductive ActOut where
  | word (s : State) (w : Word)
  | fault (f : LaneFault)
  | wait (s : State) (ctx : Nat)
  | stall (s : State)

def status (s : State) (st val : Nat) : ActOut := .word s (statusWord st val)

/-- Read a record of an operator: the load of the lane (R314, R316, R319). -/
def actRecord (k : SlotCtx) (s : State) (addr n align : Nat) (act : State → List Byte → ActOut) : ActOut :=
  if 2 ^ 56 ≤ addr then .fault ⟨.bounds, addr, 0⟩
  else if addr % align ≠ 0 then .fault ⟨.misaligned, addr, 0⟩
  else
    let (s, r) := readVirt s k.who k.core k.ctx addr n .read
    match r with
    | .inl (.fault f) => .fault f
    | .inl _ => .stall s
    | .inr b => act s b

/-- Run an act on each executing lane; in a lane pass there is one. A lane with an act under way takes its
result once it is there (R313). -/
def actLanes (k : SlotCtx) (act : SlotCtx → State → Nat → ActOut) : List Nat → State → List (Nat × List Word) → Out
  | [], s, r => .done s r
  | l :: ls, s, r =>
    match s.ctl.acts.find? (fun a => a.gid == k.gid && a.entry == k.entry && a.lane == l) with
    | some a =>
      (match a.done with
       | none => .stall s
       | some w =>
         let s := { s with ctl := { s.ctl with acts := s.ctl.acts.filter (fun x => x != a) } }
         actLanes k act ls s (r ++ [(l, [w])]))
    | none =>
      match act k s l with
      | .word s w => actLanes k act ls s (r ++ [(l, [w])])
      | .fault f => .trap s r ⟨0, [(l, f)]⟩
      | .stall s => .stall s
      | .wait s c => .stall { s with ctl := { s.ctl with acts := s.ctl.acts ++ [⟨k.gid, k.entry, l, c, none⟩] } }

def actEff (act : SlotCtx → State → Nat → ActOut) (k : SlotCtx) (s : State) : Out := actLanes k act k.lanes s []

/-- Word j of the scalars from S(a) up. -/
def actWord (k : SlotCtx) (s : State) (f : YForm) (l j : Nat) : Nat := (k.word s f.src l j).toNat
def actAddr (k : SlotCtx) (s : State) (f : YForm) (l : Nat) : Nat := k.rd64 s f.src l

/-- A context that an operator names: of its own partition, or it might as well not exist (R313). -/
def namedCtx (s : State) (k : SlotCtx) (c : Nat) : Option Ctx :=
  match s.ctx? c with
  | some x => if x.part = (s.getCtx k.ctx).part then some x else none
  | none => none

/-! ## PLACE (R314, R315) -/

def recClusters (b : List Byte) : BitVec 72 := BitVec.ofNat 72 (leAt b 52 9)

/-- The first failing field of a placement record that creates a context. -/
def placeBad (b : List Byte) (restore : Bool) : Option Nat :=
  if leAt b 0 1 ≠ 2 ∧ leAt b 0 1 ≠ 3 then some 0
  else if restore && leAt b 0 1 != 2 then some 0
  else if leAt b 1 1 ≠ 0 then some 1
  else if leAt b 2 2 ≠ 0 then some 2
  else if leAt b 8 8 % 4096 ≠ 0 ∨ 2 ^ 52 ≤ leAt b 8 8 then some 8
  else if leAt b 16 8 % 4096 ≠ 0 ∨ 2 ^ 56 ≤ leAt b 16 8 then some 16
  else if leAt b 28 4 ≠ 0 then some 28
  else if leAt b 61 3 ≠ 0 then some 61
  else none

/-- RESUME: a held context returns to the head of the list. -/
def placeResume (k : SlotCtx) (s : State) (b : List Byte) : ActOut :=
  match namedCtx s k (leAt b 4 4) with
  | none => status s 2 0
  | some c =>
    if c.auth = 1 ∨ c.run ≠ 3 then status s 0xE c.run
    else if actBusy s c.num then status s 0xD 0
    else if recClusters b &&& ~~~partClusters s c.part ≠ 0 then status s 5 0
    else
      let m := if recClusters b = 0 then partClusters s c.part else recClusters b
      let s := s.updCtx c.num (fun c => { c with run := 1, clusters := m })
      status (toHead s c.num (savedBlocks s c.num)) 0 c.num

/-- A new shell or auditor from a record. -/
def placeNew (k : SlotCtx) (s : State) (b : List Byte) (image : Option Nat) : ActOut :=
  let part := (s.getCtx k.ctx).part
  let auth := leAt b 0 1
  match freeCtx s with
  | none => status s 5 0
  | some n =>
    if recClusters b &&& ~~~partClusters s part ≠ 0 ∨ (auth = 2 ∧ keyQuota s part = 0) then status s 5 0
    else
      let c : Ctx :=
        { Ctx.fresh n auth part with
            s2root := BitVec.ofNat 64 (leAt b 8 8), saveBase := leAt b 16 8, saveSize := leAt b 24 4, tenant := leAt b 32 8,
            clusters := if recClusters b = 0 then partClusters s part else recClusters b, restore := image.isSome, image := image,
            imgSize := leAt b 48 4, run := if auth = 3 then 1 else 0 }
      status (addCtx s c) 0 n

/-- PLACE.1 looks at the image's header first: checks 1 and 3 of R312. -/
def placeImage (k : SlotCtx) (s : State) (b : List Byte) : ActOut :=
  let addr := leAt b 40 8
  let refuse (s : State) (st val : Nat) : ActOut :=
    let detail := if st = 8 then val else 0x100 + st
    .word (postOperator s k.ctx ⟨k.ctx, 4, 0, detail, 0⟩) (statusWord st val)
  actRecord k s addr 256 1 (fun s h =>
    if !headerKnown h then refuse s 9 0
    else match missingBlock s h with
      | some m => refuse s 8 m
      | none => placeNew k s b (some addr))

def placeAct (f : YForm) (restore : Bool) (k : SlotCtx) (s : State) (l : Nat) : ActOut :=
  actRecord k s (actAddr k s f l) 64 64 (fun s b =>
    if leAt b 1 1 % 2 = 1 then (if leAt b 1 1 = 1 then placeResume k s b else status s 6 1)
    else if leAt b 0 1 = 1 then status s 1 0
    else match placeBad b restore with
      | some o => status s 6 o
      | none => if restore then placeImage k s b else placeNew k s b none)

/-! ## EVICT (R315, R316) -/

/-- A context that EVICT.0 to .2 may act on, in one of these run states. -/
def evictable (k : SlotCtx) (s : State) (c : Nat) (runs : List Nat) (act : Ctx → ActOut) : ActOut :=
  match namedCtx s k c with
  | none => status s 2 0
  | some x =>
    if x.auth = 1 ∨ x.run = 7 then status s 0xE x.run
    else if actBusy s c then status s 0xD 0
    else if !runs.contains x.run then status s 0xE x.run
    else act x

/-- Halt a context for an eviction. -/
def startLeave (s : State) (ctx : Nat) (l : Leave) : State := (setHalt s ctx true).updCtx ctx (fun c => { c with leave := some l })

def evictAct (f : YForm) (k : SlotCtx) (s : State) (l : Nat) : ActOut :=
  evictable k s (actWord k s f l 0) [1, 2, 4] (fun c =>
    if c.gang then status s 0xE c.run
    else match planSeal s c.num k.ctx c.saveBase c.saveSize 0 with
      | .inl n => status s 7 (mib n)
      | .inr (s, p) => .wait (startLeave s c.num (.evict (actWord k s f l 1 % 2 == 1) p)) c.num)

def evictDestroyAct (f : YForm) (k : SlotCtx) (s : State) (l : Nat) : ActOut :=
  evictable k s (actWord k s f l 0) [0, 1, 2, 3, 4, 5, 6] (fun c => status (destroyCtx s c.num false) 0 0)

def evictSealAct (f : YForm) (k : SlotCtx) (s : State) (l : Nat) : ActOut :=
  let addr := actWord k s f l 1 + actWord k s f l 2 * 2 ^ 32
  evictable k s (actWord k s f l 0) [1, 2, 3, 4] (fun c =>
    if c.gang then status s 0xE c.run
    else if 4096 ≤ s.ctl.seals.length then status s 4 0
    else match planSeal s c.num k.ctx addr (actWord k s f l 3) 0 with
      | .inl n => status s 7 (mib n)
      | .inr (s, p) => .wait (startLeave s c.num (.seal p)) c.num)

def evictDiscardAct (f : YForm) (k : SlotCtx) (s : State) (l : Nat) : ActOut :=
  actRecord k s (actAddr k s f l) 256 1 (fun s h =>
    match s.ctl.seals.find? (fun e => e.ctrbase == leAt h 24 8 && e.part == (s.getCtx k.ctx).part) with
    | some e => if leAt h 16 4 = s.boot.cfg.inst then status (releaseSeal s e.ctrbase) 0 0 else status s 0x10 0
    | none => status s 0x10 0)

/-! ## KEYBIND (R21, R25, R315) -/

/-- The shell that a claim of a partition names, or the status that turns it away. -/
def shellFor (s : State) (part shell : Nat) : (Nat × Nat) ⊕ Ctx :=
  match s.ctx? shell with
  | none => .inl (2, 0)
  | some c =>
    if c.part ≠ part ∨ c.run = 7 then .inl (2, 0)
    else if c.auth ≠ 2 ∨ c.claimed then .inl (0xE, c.run)
    else if actBusy s shell then .inl (0xD, 0)
    else .inr c

def keybindAct (f : YForm) (k : SlotCtx) (s : State) (l : Nat) : ActOut :=
  let me := s.getCtx k.ctx
  let flags := actWord k s f l 1
  if 2 ≤ flags then .fault ⟨.reservedField, 0, 0⟩
  else match shellFor s me.part (actWord k s f l 0) with
  | .inl (st, v) => status s st v
  | .inr c =>
    match me.keySlot.bind s.keySlot? with
    | none => status s 1 0
    | some slot =>
      if c.tenant ≠ 0 ∧ c.tenant ≠ slot.tenant then status s 0xB 0
      else let (s, w) := claimShell s c.num slot.slot (flags == 1); .word s w

/-- KEYBIND as a request of the owner's process: it brings a key (R19, R21, R315). -/
def keybindHost (s : State) (r : KeybindReq) : State × Word :=
  match s.ctx? r.shell with
  | none => (s, statusWord 2 0)
  | some c =>
    match shellFor s c.part r.shell with
    | .inl (st, v) => (s, statusWord st v)
    | .inr c =>
      if 2 ≤ r.accept.toNat then (s, statusWord 6 12)
      else if c.tenant ≠ 0 ∧ c.tenant ≠ r.tenant.toNat then (s, statusWord 0xB 0)
      else match s.ctl.keySlots.find? (fun k => k.tenant == r.tenant.toNat) with
        | some k => if k.key ≠ r.key then (s, statusWord 3 0) else claimShell s c.num k.slot (r.accept == 1)
        | none =>
          match freeKeySlot s c.part with
          | none => (s, statusWord 4 0)
          | some n =>
            let s' := { s with ctl := { s.ctl with keySlots := s.ctl.keySlots ++ [⟨n, r.tenant.toNat, r.key, 0, 0, c.part⟩] } }
            let (s', w) := claimShell s' c.num n (r.accept == 1)
            (updSlot s' (some n) id, w)

/-! ## The meanings -/

/-- PLACE.0 (R315). -/
def execPlace (f : YForm) (s : State) : Host.Outcome State Fault Refusal :=
  slotStep (.place f) (actEff (placeAct f false)) s
/-- PLACE.1 (R315). -/
def execPlaceRestore (f : YForm) (s : State) : Host.Outcome State Fault Refusal :=
  slotStep (.placeRestore f) (actEff (placeAct f true)) s
/-- EVICT.0 (R315). -/
def execEvict (f : YForm) (s : State) : Host.Outcome State Fault Refusal :=
  slotStep (.evict f) (actEff (evictAct f)) s
/-- EVICT.1 (R24, R315). -/
def execEvictDestroy (f : YForm) (s : State) : Host.Outcome State Fault Refusal :=
  slotStep (.evictDestroy f) (actEff (evictDestroyAct f)) s
/-- EVICT.2 (R25, R315). -/
def execEvictSeal (f : YForm) (s : State) : Host.Outcome State Fault Refusal :=
  slotStep (.evictSeal f) (actEff (evictSealAct f)) s
/-- EVICT.3 (R316). -/
def execEvictDiscard (f : YForm) (s : State) : Host.Outcome State Fault Refusal :=
  slotStep (.evictDiscard f) (actEff (evictDiscardAct f)) s
/-- KEYBIND (R315). -/
def execKeybind (f : YForm) (s : State) : Host.Outcome State Fault Refusal :=
  slotStep (.keybind f) (actEff (keybindAct f)) s
/-- KEYBIND_REQUEST (R21, R315): the status goes back in the response. It takes an open SPDM session (R336). -/
def execKeybindRequest (r : KeybindReq) (s : State) : Host.Outcome State Fault Refusal :=
  if s.boot.sessions = 0 then .next s
  else let (s, w) := keybindHost s r; .next (s.send (.keybind w.toNat))

end Sys2Proof.Machine
end

