-- ==== Sys2Proof/Machine/Gang.lean ====
section
/-! DEFINITION. The gang switch (R318 to R321): GSWITCH.0 and GSWITCH.1, the sweep, the clearing and the
windfall, and the events that carry a switch through its windows. -/

namespace Sys2Proof.Machine

/-! ## Switches -/

def State.switch? (s : State) (ctx : Nat) : Option Switch := s.fab.switches.find? (fun w => w.ctx == ctx)
def State.updSwitch (s : State) (ctx : Nat) (f : Switch → Switch) : State :=
  { s with fab := { s.fab with switches := updWhere (fun w => w.ctx == ctx) f s.fab.switches } }
def dropSwitch (s : State) (ctx : Nat) : State :=
  { s with fab := { s.fab with switches := s.fab.switches.filter (fun w => w.ctx != ctx) } }

/-- The member of a job on this chip. -/
def jobCtx (s : State) (job : Nat) : Option Ctx := s.ctxs.find? (fun c => c.gang && c.jobTag == job && c.run != 7)

/-- The switch under way of a job that is leaving the hardware. -/
def leavingSwitch (s : State) (job : Nat) : Option Switch :=
  s.fab.switches.find? (fun w => (s.getCtx w.ctx).jobTag == job && (w.phase == .waiting || w.phase == .swept || w.phase == .sealed))

/-! ## Areas (R319, R320) -/

def pad64 (n : Nat) : Nat := (n + 63) / 64 * 64
def AreaRec.size (r : AreaRec) : Nat := 64 + pad64 r.pkt.payload.length
def areaBytes (l : List AreaRec) : Nat := 64 + sumOf AreaRec.size l
/-- Chunks an area seals. -/
def areaChunks (l : List AreaRec) : Nat := chunksFor (areaBytes l)
/-- Whether an area of `size` 4 KiB units, its tags included, takes these records. -/
def areaFits (size : Nat) (l : List AreaRec) : Bool := 4112 * areaChunks l ≤ size * 4096

/-- Where the sealed bytes of an area stand among those of its image's number. -/
def areaBase (area : Nat) : Nat := area * 2 ^ 40
def areaSealed (id area : Nat) (l : List AreaRec) : List Byte := sealedBytes id (areaBase area) (4112 * areaChunks l)

/-- Most chunks an area of a size takes: its reserve of counters. -/
def areaMax (size : Nat) : Nat := size

/-! ## Switch records (R319) -/

structure SwitchRec where
  ctx : Nat
  window : Nat
  image : Nat
  imgSize : Nat
  clrSize : Nat
  clearing : Nat
  windfall : Nat
  wfSize : Nat

def SwitchRec.ofBytes (b : List Byte) : SwitchRec :=
  ⟨leAt b 0 4, leAt b 8 8, leAt b 16 8, leAt b 24 4, leAt b 28 4, leAt b 32 8, leAt b 40 8, leAt b 48 4⟩

def switchBad (b : List Byte) : Option Nat :=
  if leAt b 4 4 ≠ 0 then some 4 else if leAt b 28 4 < 3086 then some 28 else if leAt b 48 4 < 3086 then some 48
  else if !allZero b 52 12 then some 52 else none

/-- A named context and its record, once the fields and the window pass. -/
def switchFor (k : SlotCtx) (s : State) (b : List Byte) (ok : Ctx → Bool) (act : Ctx → SwitchRec → ActOut) : ActOut :=
  let r := SwitchRec.ofBytes b
  match switchBad b with
  | some o => status s 6 o
  | none =>
    match namedCtx s k r.ctx with
    | none => status s 2 0
    | some c =>
      if actBusy s c.num then status s 0xD 0
      else if !ok c then status s 0xE c.run
      else if r.window * 1024 ≤ s.now then status s 0xF 0
      else act c r

def newSwitch (k : SlotCtx) (c : Ctx) (r : SwitchRec) (l : Nat) (phase : SwPhase) : Switch :=
  { (default : Switch) with
      ctx := c.num, gid := k.gid, entry := k.entry, lane := l, window := r.window, image := r.image, imgSize := r.imgSize,
      clrSize := r.clrSize, clearing := r.clearing, windfall := r.windfall, wfSize := r.wfSize, phase := phase }

def addSwitch (s : State) (w : Switch) : State := { s with fab := { s.fab with switches := s.fab.switches ++ [w] } }

/-- GSWITCH.0: accepted before W. -/
def saveAct (f : YForm) (k : SlotCtx) (s : State) (l : Nat) : ActOut :=
  actRecord k s (actAddr k s f l) 64 64 (fun s b =>
    switchFor k s b (fun c => c.gang && c.run == 2 && c.leave.isNone) (fun c r =>
      if !bufferReach s k.ctx r.clearing (r.clrSize * 4096) || !bufferReach s k.ctx r.windfall (r.wfSize * 4096) then
        status s 7 (mib (r.clrSize * 4096 + r.wfSize * 4096))
      else match planSeal s c.num k.ctx r.image r.imgSize 1 with
        | .inl n => status s 7 (mib n)
        | .inr (s, p) => .wait (addSwitch s { newSwitch k c r l .waiting with plan := p }) c.num))

/-- An image of kind 2 at an operator's address with its areas, or the status that refuses it (R312, R321). -/
def gangImage (s : State) (k : SlotCtx) (c : Ctx) (r : SwitchRec) : (Nat × Nat) ⊕ Image :=
  match bufferRead s k.ctx r.image 256 with
  | none => .inl (0xA, 0)
  | some h =>
    if !headerKnown h then .inl (9, 0)
    else if leAt h 8 8 ≠ tenantOf s c then .inl (0xB, 0)
    else match missingBlock s h with
    | some b => .inl (8, b)
    | none =>
      match imageAt s k.ctx r.image with
      | none => .inl (0xA, 0)
      | some im =>
        let area (addr n : Nat) (l : List AreaRec) : Bool := sealedAt s k.ctx addr im.id (areaBase n) (4112 * areaChunks l)
        if im.kind ≠ 2 ∨ !tagsOk s k.ctx r.image r.imgSize im (keyOf s c) ∨ !area r.clearing 1 im.clr ∨ !area r.windfall 2 im.wf then .inl (0xA, 0)
        else if im.fabinc && (c.run == 6 || !c.acceptInc) then .inl (0xC, 0)
        else .inr im

/-- GSWITCH.1: its context is switched out here, or a claimed shell of a gang image. -/
def restoreAct (f : YForm) (k : SlotCtx) (s : State) (l : Nat) : ActOut :=
  let shell (c : Ctx) : Bool := c.run == 5 && c.claimed && (match c.image with
    | some a => (match bufferRead s k.ctx a 256 with | some h => leAt h 6 2 == 2 | none => false)
    | none => false)
  actRecord k s (actAddr k s f l) 64 64 (fun s b =>
    switchFor k s b (fun c => c.run == 6 || shell c) (fun c r =>
      match gangImage s k c r with
      | .inl (st, v) =>
        let detail := if st = 8 then v else 0x100 + st
        let s := postToOperator s c.num ⟨c.num, 4, 0, detail, 0⟩
        status (if c.image.isSome then postOwner s c.num 0 ⟨c.num, 4, 0, detail, 0⟩ else s) st v
      | .inr im => .wait (addSwitch s { newSwitch k c r l .restoring with imageId := im.id }) c.num))

/-! ## The start of window W (R320, steps 2 and 3) -/

/-- Engine operations stop; their packets still in outboxes return to them. -/
def stopOps (s : State) (ctx : Nat) : State :=
  let held (id : Nat) : List Packet := s.fab.ports.flatMap (fun p => (p.outbox.filter (fun x => x.op == id)).map (fun x => x.pkt))
  let ids := (s.mx.ops.filter (fun o => o.ctx == ctx)).map (fun o => o.id)
  { s with
    mx := { s.mx with ops := s.mx.ops.map (fun (o : EOp) => if o.ctx == ctx then { o with stopped := true, held := o.held ++ held o.id } else o) }
    fab := { s.fab with ports := s.fab.ports.map (fun (p : Port) => { p with outbox := p.outbox.filter (fun x => !ids.contains x.op) }) } }

/-- The job's packets in the receive buffers: port 0 to 11, VC 0 to 3, in arrival order. -/
def sweepRecs (s : State) (job : Nat) : List AreaRec :=
  (List.range 12).flatMap (fun n => (List.range 4).flatMap (fun v =>
    (s.fab.ports.filter (fun p => p.port == n)).flatMap (fun p =>
      (p.rx.filter (fun x => x.pkt.job == job && x.pkt.vc == v)).map (fun x => ⟨n, x.pkt, x.win, 0⟩))))

def sweep (s : State) (ctx job : Nat) : State :=
  let recs := sweepRecs s job
  let s := { s with fab := { s.fab with ports := s.fab.ports.map (fun (p : Port) => { p with rx := p.rx.filter (fun x => x.pkt.job != job) }) } }
  s.updSwitch ctx (fun w => { w with phase := .swept, clr := recs })

def windowStart (s : State) (ctx : Nat) : State :=
  match s.switch? ctx with
  | none => s
  | some w =>
    if w.phase != .waiting || s.now < w.window * 1024 then s
    else
      let s := stopOps (setHalt s ctx true) ctx
      let s := s.updCtx ctx (fun c => { c with leave := some .switch })
      sweep s ctx (s.getCtx ctx).jobTag

/-! ## Arrivals during a switch (R320, steps 4 and 5) -/

/-- A job packet that arrives while its job is leaving. -/
def windfallArrive (s : State) (w : Switch) (port : Nat) (p : Packet) : State :=
  let win := windowOf s.now
  let late := w.window + 2 ≤ win
  let rec' : AreaRec := ⟨port, p, win, if late then 2 else 1⟩
  let room := areaFits w.wfSize (w.wf ++ [rec'])
  let s := s.updSwitch w.ctx (fun w =>
    { w with wf := if room then w.wf ++ [rec'] else w.wf, late := if late then w.late + 1 else w.late, kept := if late && room then w.kept + 1 else w.kept,
             dropped := if room then w.dropped else w.dropped + 1, fabinc := w.fabinc || !room })
  let s := if room then s else s.count w.ctx 0x000C 1
  if late then postToOperator s w.ctx ⟨w.ctx, 0x16, 0, port + p.vc * 16 + (if room then 0 else 256), p.src + p.seq * 65536⟩ else s

/-! ## Sealing (R320, step 6) -/

/-- Everything of a job has settled, but for LASTSEND. -/
def switchQuiet (s : State) (ctx : Nat) : Bool :=
  (s.groupsOfCtx ctx).all (groupQuiet s false) && s.mx.progs.all (fun p => p.ctx != ctx || progQuiet p)

/-- At the end of W: the header is fixed, every chunk but the trailer is sealed, and the clearing. -/
def switchSeal (s : State) (ctx : Nat) : State :=
  match s.switch? ctx with
  | none => s
  | some w =>
    if w.phase != .swept || s.now < (w.window + 1) * 1024 || !switchQuiet s ctx then s
    else
      let c := s.getCtx ctx
      let ctr := s.boot.sealCtr
      let n := chunkCount w.plan.lens + 1
      let live := liveBlocks s ctx
      let g : GangPart := ⟨ctr + n, areaMax w.clrSize, ctr + n + areaMax w.clrSize, areaMax w.wfSize⟩
      let h := imageHeader s ctx 2 (tenantOf s c) ctr n live w.plan.lens g
      let s := { s with boot := { s.boot with sealCtr := ctr + n + areaMax w.clrSize + areaMax w.wfSize } }
      let op := w.plan.op
      let s := bufferWrite s op w.image (h ++ sealedBytes w.plan.id 0 (16 * (n - 1)))
      let s := bufferWrite s op (w.image + 256 + 16 * n) (sealedBytes w.plan.id (16 * n) (4096 * (n - 1)))
      let s := bufferWrite s op w.clearing (areaSealed w.plan.id 1 w.clr)
      s.updSwitch ctx (fun w => { w with phase := .sealed, ctrbase := ctr, chunks := n, header := h, live := live })

/-- At the end of W + 3: the windfall and the trailer are sealed, the context is switched out. -/
def switchOut (s : State) (ctx : Nat) : State :=
  match s.switch? ctx with
  | none => s
  | some w =>
    if w.phase != .sealed || s.now < (w.window + 4) * 1024 then s
    else
      let op := w.plan.op
      let id := w.plan.id
      let s := bufferWrite s op w.windfall (areaSealed id 2 w.wf)
      let s := bufferWrite s op (w.image + 256 + 16 * (w.chunks - 1)) (sealedBytes id (16 * (w.chunks - 1)) 16)
      let s := bufferWrite s op (w.image + 256 + 16 * w.chunks + 4096 * (w.chunks - 1)) (sealedBytes id (16 * w.chunks + 4096 * (w.chunks - 1)) 4096)
      let s := ((leavingBlocks s ctx .switch).foldl evictBlock s).count ctx 0x0008 1
      let s := s.updCtx ctx (fun c => { c with leave := none, sliceStart := none })
      let im := { snapshot s ctx 2 id w.ctrbase w.chunks w.header w.live with clr := w.clr, wf := w.wf, fabinc := w.fabinc || (s.getCtx ctx).fabinc }
      let s := { removeCtx s ctx with vault := im :: s.vault.filter (fun x => x.id != id) }
      doneActs (dropSwitch (s.updCtx ctx (fun c => { c with run := 6 })) ctx) ctx (statusWord 0 0)

/-! ## The restore (R321) -/

/-- Saved records go back to the receive buffers of their ports, before any other packet there. -/
def reinjectRecs (s : State) (job : Nat) (l : List AreaRec) : State :=
  { s with fab := { s.fab with ports := s.fab.ports.map (fun (p : Port) =>
      { p with rx := ((l.filter (fun r => r.port == p.port)).map (fun r => (⟨{ r.pkt with job := job }, r.window, true⟩ : RxPacket))) ++ p.rx }) } }

def reinject (s : State) (ctx : Nat) : State :=
  match s.switch? ctx with
  | none => s
  | some w =>
    match s.vault.find? (fun im => im.id == w.imageId) with
    | none => s
    | some im =>
      if w.phase != .restoring || s.now < w.window * 1024 then s
      else
        let s := restoreInto s ctx im (s.getCtx ctx).keySlot 5
        let s := reinjectRecs s (s.getCtx ctx).jobTag (im.clr ++ im.wf)
        s.updSwitch ctx (fun w => { w with phase := .injected })

/-- An operation goes on: its sectors are claimed again, the packets it held go to their outboxes. -/
def resumeOp (s : State) (o : EOp) : State :=
  let job := (s.getCtx o.ctx).jobTag
  let s := s.updOp o.id (fun o => { o with stopped := false, held := [] })
  let s := claimSectors s { o with stopped := false }
  o.held.foldl (fun s p =>
    match (s.path? job p.dst p.vc).bind (fun x => x.ports.head?) with
    | none => (discardReport (s.count o.ctx 0x000C 1) 0 p).updOp o.id (fun o => { o with outstanding := o.outstanding - 1 })
    | some n => s.updPort n (fun q => { q with outbox := q.outbox ++ [⟨o.id, { p with job := job, src := (s.getCtx o.ctx).gangPos }, false⟩] })) s

def resumeJob (s : State) (ctx : Nat) : State :=
  match s.switch? ctx with
  | none => s
  | some w =>
    let job := (s.getCtx ctx).jobTag
    if w.phase != .injected || s.now < (w.window + 2) * 1024 || s.fab.ports.any (fun p => p.rx.any (fun x => x.again && x.pkt.job == job)) then s
    else
      let resident := s.groups.any (fun g => g.ctx == ctx && g.resident)
      let s := s.updCtx ctx (fun c => { c with run := if resident then 2 else 1 })
      let placed (p : Prog) : Bool := p.ctx == ctx && p.cluster < 1000
      let grp (g : Group) : Group := if g.ctx == ctx && g.resident then { g with halted := false } else g
      let prog (p : Prog) : Prog := if placed p then { p with stopped := false } else p
      let s : State := { s with groups := s.groups.map grp, mx := { s.mx with progs := s.mx.progs.map prog } }
      let s := (s.mx.ops.filter (fun o => o.ctx == ctx && o.stopped)).foldl resumeOp s
      let s := postToOperator s ctx ⟨ctx, 5, 0, 0, 0⟩
      let s := postOwner s ctx 0 ⟨ctx, 5, 0, 0, 0⟩
      doneActs (dropSwitch s ctx) ctx (statusWord 0 0)

/-! ## The meanings -/

/-- GSWITCH.0 (R319, R320). -/
def execGswitchSave (f : YForm) (s : State) : Host.Outcome State Fault Refusal :=
  slotStep (.gswitchSave f) (actEff (saveAct f)) s
/-- GSWITCH.1 (R319, R321). -/
def execGswitchRestore (f : YForm) (s : State) : Host.Outcome State Fault Refusal :=
  slotStep (.gswitchRestore f) (actEff (restoreAct f)) s
/-- GSWITCH_WINDOW_START (R320). -/
def execGswitchWindowStart (ctx : Nat) (s : State) : Host.Outcome State Fault Refusal := .next (windowStart s ctx)
/-- GSWITCH_SEAL (R320). -/
def execGswitchSeal (ctx : Nat) (s : State) : Host.Outcome State Fault Refusal := .next (switchSeal s ctx)
/-- GSWITCH_WINDFALL_SEAL (R320). -/
def execGswitchWindfallSeal (ctx : Nat) (s : State) : Host.Outcome State Fault Refusal := .next (switchOut s ctx)
/-- GSWITCH_REINJECT (R321). -/
def execGswitchReinject (ctx : Nat) (s : State) : Host.Outcome State Fault Refusal := .next (reinject s ctx)
/-- GSWITCH_RESUME (R321). -/
def execGswitchResume (ctx : Nat) (s : State) : Host.Outcome State Fault Refusal := .next (resumeJob s ctx)

end Sys2Proof.Machine
end

