-- ==== Sys2Proof/Machine/Graph.lean ====
section
/-! DEFINITION. Triples and 64-bit words (R269), graph runs and their nodes (R282 to R284), LAUNCH.1 (R71). -/

namespace Sys2Proof.Machine

/-! ## Words and compares (R269) -/

/-- A translation of one party's addresses. -/
abbrev Xlate := State → Nat → Access → State × Tr

/-- Read n bytes that lie in one sector. -/
def xRead (x : Xlate) (s : State) (va n : Nat) : State × (Tr ⊕ List Byte) :=
  let (s, r) := x s va .read
  match r with
  | .ok pa _ => (s, .inr (s.rdBytes pa n))
  | t => (s, .inl t)

/-- Read n bytes, sector by sector. -/
def xReadAll (x : Xlate) : List (Nat × Nat) → State → State × (Tr ⊕ List Byte)
  | [], s => (s, .inr [])
  | (va, n) :: cs, s =>
    let (s, r) := xRead x s va n
    match r with
    | .inl t => (s, .inl t)
    | .inr b =>
      let (s, r2) := xReadAll x cs s
      match r2 with
      | .inr bs => (s, .inr (b ++ bs))
      | .inl t => (s, .inl t)

def xReadN (x : Xlate) (s : State) (va n : Nat) : State × (Tr ⊕ List Byte) := xReadAll x (chunks (n / 64 + 2) va n) s

/-- The compare of a code. -/
def cmpHolds (code : Nat) (w v : DWord) : Bool :=
  match code with
  | 0 => w == v
  | 1 => w != v
  | 2 => w.ult v
  | 3 => !(w.ult v)
  | 4 => w.slt v
  | 5 => !(w.slt v)
  | _ => false

/-- The triples of a table, or what is wrong with it: 2 a field, 3 a compare code, 4 an alignment. -/
def triplesOf (n : Nat) (b : List Byte) : Nat ⊕ List Triple :=
  let ts := (List.range n).map (fun i => (⟨leAt b (16 * i) 7, bitsOf (leAt b (16 * i + 7) 1) 4 4, leAt b (16 * i + 8) 8⟩ : Triple))
  if (List.range n).any (fun i => leAt b (16 * i + 7) 1 % 16 != 0) then .inl 2
  else if ts.any (fun t => 5 < t.cmp) then .inl 3
  else if ts.any (fun t => t.addr % 8 != 0) then .inl 4
  else .inr ts

/-- Whether a triple holds now; a word that cannot be read does not hold. -/
def tripleHolds (x : Xlate) (s : State) (t : Triple) : State × Bool :=
  let (s, r) := xRead x s t.addr 8
  match r with
  | .inr b => (s, cmpHolds t.cmp (BitVec.ofNat 64 (natOfBytes b)) (BitVec.ofNat 64 t.v))
  | .inl _ => (s, false)

/-- The lowest triple that holds, and whether all hold. -/
def evalTriples (x : Xlate) (s : State) (ts : List Triple) : State × Option Nat × Bool :=
  let (s, hs) := ts.foldl (fun (a : State × List Bool) t => let (s, h) := tripleHolds x a.1 t; (s, a.2 ++ [h])) (s, [])
  (s, (List.range hs.length).find? (fun i => hs.getD i false), hs.all id)

/-- SIGNAL's update (R268): write, or add with wrap. None: it stalls. -/
inductive UpdOut where
  | ok (s : State) (gwct : Nat)
  | fault (f : LaneFault) (s : State)
  | stall (s : State)

def wordUpdate (x : Xlate) (dirty : State → Nat → State) (s : State) (va : Nat) (add : Bool) (v : Nat) : UpdOut :=
  let (s, r) := x s va (if add then .rmw else .write)
  match r with
  | .stall _ => .stall s
  | .fault f => .fault f s
  | .ok pa ip =>
    if s.vis.isOwned (sectorOf pa) then .stall s
    else
      let g := s.gwctOf (sectorOf pa)
      let n := if add then (s.rdNat pa 8 + v) % 2 ^ 64 else v
      .ok (dirty (devWrite s pa (bytesOfNat 8 n)) ip) g

/-! ## Node records (R282) -/

def Node.ofBytes (b : List Byte) : Node :=
  { kind := leAt b 0 1, nsucc := leAt b 1 1, cond := leAt b 2 1, intr := leAt b 3 1 % 2 == 1, limit := leAt b 4 4, header := leAt b 8 8,
    operand := leAt b 16 8, value := leAt b 24 8, extra := leAt b 32 8, succ := (List.range 12).map (fun i => leAt b (40 + 2 * i) 2),
    pred := 0, st := .waiting, iters := 0, inRun := false, child := false, want := false }

/-- Successors that the run's edges name. -/
def Node.outs (n : Node) : List Nat := n.succ.take n.nsucc

/-- The fields of a node of a graph (R282, R283). -/
def nodeOk (header nodes : Nat) (b : List Byte) (n : Node) : Bool :=
  1 ≤ n.kind && n.kind ≤ 8 && n.nsucc ≤ 12 && leAt b 3 1 < 2 && n.header == header && n.outs.all (fun i => i < nodes) &&
  (match n.kind with
   | 1 => n.cond == 0 && n.extra == 0 && n.operand < 2 ^ 56
   | 2 => n.cond ≤ 5 && n.extra == 0 && n.nsucc == 2 && n.operand % 8 == 0
   | 3 => n.cond ≤ 5 && 1 ≤ n.limit && n.operand % 8 == 0 && n.extra % 64 == 0
   | 4 | 5 => 1 ≤ n.cond && n.cond ≤ 12 && n.extra == 0 && n.operand % 16 == 0
   | 6 => n.cond == 0 && n.extra < 2 && n.operand % 8 == 0
   | 7 => n.cond == 0 && n.extra == 0 && n.operand % 64 == 0 && n.value < 288
   | _ => n.cond == 0 && n.extra == 0 && n.operand % 64 == 0)

/-- Nodes reachable from a set, in at most `fuel` rounds. -/
def reachNodes (ns : List Node) : Nat → List Nat → List Nat
  | 0, r => r
  | fuel + 1, r =>
    let r' := distinct (r ++ r.flatMap (fun i => (ns.getD i default).outs))
    if r'.length = r.length then r else reachNodes ns fuel r'

/-- Edges of the run into a node. -/
def predCount (ns : List Node) (run : List Nat) (n : Nat) : Nat :=
  sumOf (fun i => ((ns.getD i default).outs.filter (fun j => j == n)).length) run

/-- No cycle among the run's edges: removing nodes without predecessors empties it. -/
def acyclic (ns : List Node) : Nat → List Nat → Bool
  | 0, r => r.isEmpty
  | fuel + 1, r =>
    let free := r.filter (fun n => predCount ns r n == 0)
    if r.isEmpty then true else if free.isEmpty then false else acyclic ns fuel (r.filter (fun n => !free.contains n))

/-! ## Runs -/

def State.run? (s : State) (id : Nat) : Option Run := s.ctl.runs.find? (fun r => r.id == id)
def State.updRun (s : State) (id : Nat) (f : Run → Run) : State :=
  { s with ctl := { s.ctl with runs := updWhere (fun r => r.id == id) f s.ctl.runs } }
def State.updNode (s : State) (id n : Nat) (f : Node → Node) : State :=
  s.updRun id (fun r => { r with nodes := (r.nodes.zip (List.range r.nodes.length)).map (fun x => if x.2 = n then f x.1 else x.1) })

def runsFree (s : State) : Bool := s.ctl.runs.length < 64

/-- A context's own translation, for the control complex. -/
def ctxXlate (who : Agent) (ctx : Nat) : Xlate := fun s va acc => translate s who controlCore ctx va acc

/-- How a run starts: a graph header or a node record. -/
inductive RunStart where
  | wait (s : State)          -- a page is missing, or every record is in use
  | began (s : State) (id : Nat)

/-- Make a run record. Its own nodes start by `startReady`. -/
def addRun (s : State) (r : Run) : State :=
  ({ s with nextId := s.nextId + 1, ctl := { s.ctl with runs := s.ctl.runs ++ [{ r with id := s.nextId, order := s.nextId }] } }).count r.ctx 0x0011 1

/-- Read header and node table and fix the run (R283). A run that breaks R282 has no nodes and its status. -/
def beginRun (s : State) (ctx addr : Nat) (isNode : Bool) (arg depth : Nat) (parent : Option (Nat × Nat)) (src : LaunchSrc) : RunStart :=
  let x := ctxXlate (.control (s.nextId + 1000000)) ctx
  let base : Run := { (default : Run) with ctx := ctx, parent := parent, depth := depth, header := addr, arg := arg, src := src }
  let go (s : State) (r : Run) : RunStart := .began (addRun s r) s.nextId
  if !runsFree s then .wait s
  else
    let node : State × (Tr ⊕ Nat) := if isNode then
        (let (s, r) := xReadN x s addr 64
         (s, match r with | .inl t => .inl t | .inr b => .inr (leAt b 8 8)))
      else (s, .inr addr)
    match node with
    | (s, .inl (.fault _)) => go s { base with status := 3 }
    | (s, .inl _) => .wait s
    | (s, .inr hdr) =>
      if hdr % 64 ≠ 0 then go s { base with status := 4 }
      else
        let (s, h) := xReadN x s hdr 64
        match h with
        | .inl (.fault _) => go s { base with status := 3 }
        | .inl _ => .wait s
        | .inr h =>
          let tab := leAt h 0 8
          let n := leAt h 8 2
          let base := { base with header := hdr, doneaddr := leAt h 16 8, donetag := leAt h 24 6 }
          if !allZero h 10 6 || !allZero h 30 34 || tab % 64 != 0 || n == 0 || 4096 < n || base.doneaddr % 8 != 0 || 8 < depth then go s { base with status := 4 }
          else
            let (s, t) := xReadN x s tab (64 * n)
            match t with
            | .inl (.fault _) => go s { base with status := 3 }
            | .inl _ => .wait s
            | .inr t =>
              let recs := (List.range n).map (fun i => (t.drop (64 * i)).take 64)
              let ns := recs.map Node.ofBytes
              let start := if isNode then (if (addr - tab) % 64 = 0 ∧ tab ≤ addr then [(addr - tab) / 64] else [n]) else List.range n
              if start.any (fun i => n ≤ i) then go s { base with status := 4 }
              else
                let run := if isNode then reachNodes ns n start else start
                let ok := run.all (fun i => i < n && nodeOk hdr n (recs.getD i []) (ns.getD i default)) && acyclic ns n run
                if !ok then go s { base with status := 4 }
                else
                  let ns := (ns.zip (List.range n)).map (fun y => { y.1 with inRun := run.contains y.2, pred := predCount ns run y.2 })
                  go s { base with nodes := ns }

/-! ## Nodes start and complete (R283) -/

/-- A nested run for a node: a loop's body or a subgraph. -/
def startChild (s : State) (r : Run) (i : Nat) (n : Node) : State :=
  if 8 ≤ r.depth then s.updRun r.id (fun r => { r with status := 4 })
  else match beginRun s r.ctx (if n.kind = 3 then n.extra else n.operand) false r.arg (r.depth + 1) (some (r.id, i)) r.src with
  | .wait s => s.updNode r.id i (fun n => { n with want := true })
  | .began s _ => s.updNode r.id i (fun n => { n with want := false, child := true, iters := n.iters + 1 })

/-- A node starts: a kernel node's launch goes to the front end. -/
def startNode (s : State) (r : Run) (i : Nat) (n : Node) : State :=
  let s := s.updNode r.id i (fun n => { n with st := .running })
  match n.kind with
  | 1 => handLaunch s r.ctx n.operand (if n.value = 0 then r.arg else n.value) (.node r.id i) 0
  | 8 => startChild s r i n
  | _ => s

/-- Every node whose count has reached zero starts, unless the run has failed. -/
def startReady (s : State) (id : Nat) : State :=
  match s.run? id with
  | none => s
  | some r =>
    if r.status ≠ 0 then s
    else (r.nodes.zip (List.range r.nodes.length)).foldl (fun s x =>
      if x.1.inRun && x.1.st == .waiting && x.1.pred == 0 then startNode s r x.2 x.1 else s) s

/-- A completed node's edges: each successor's count falls by one. -/
def releaseEdges (s : State) (id : Nat) (js : List Nat) : State :=
  js.foldl (fun s j => s.updNode id j (fun n => { n with pred := n.pred - 1 })) s

/-- Nodes that lose their last way in complete without running, and release theirs (R283). -/
def skipNodes (s : State) (id : Nat) : Nat → List Nat → State
  | 0, _ => s
  | fuel + 1, js =>
    match s.run? id with
    | none => s
    | some r =>
      -- the edges just removed are dead; a node none of whose edges is live is skipped
      let live (j : Nat) : Bool := (r.nodes.zip (List.range r.nodes.length)).any (fun x => x.1.inRun && x.1.outs.contains j && x.1.st != .done)
      let dead := js.filter (fun j => let n := r.nodes.getD j default; n.inRun && n.st == .waiting && !live j && n.iters == 0)
      if dead.isEmpty then s
      else
        let s := dead.foldl (fun s j => s.updNode id j (fun n => { n with st := .done })) s
        let next := dead.flatMap (fun j => (r.nodes.getD j default).outs)
        skipNodes (releaseEdges s id next) id fuel (distinct next)

/-- A node completes. `outs`: the successors it releases; the others' edges die. -/
def endNode (s : State) (r : Run) (i : Nat) (n : Node) (outs : List Nat) : State :=
  let s := s.updNode r.id i (fun n => { n with st := .done })
  let s := if n.intr then postOwner s r.ctx 0 ⟨r.ctx, 0x12, 0, 0, 0⟩ else s
  -- a node that some completed way has released runs: it is marked by `iters`
  let s := outs.foldl (fun s j => s.updNode r.id j (fun m => if m.st == .waiting then { m with iters := 1 } else m)) s
  let s := releaseEdges s r.id n.outs
  let s := skipNodes s r.id 4096 (n.outs.filter (fun j => !outs.contains j))
  let s := (List.range r.nodes.length).foldl (fun s j => s.updNode r.id j (fun m => if m.st == .waiting && m.pred == 0 then { m with iters := 0 } else m)) s
  startReady s r.id

/-- The launch of a kernel node is over. -/
def launchGone (s : State) (run node : Nat) : Bool :=
  !s.ctl.launches.any (fun l => l.src == .node run node) && !s.ctl.waitingHdr.any (fun l => l.src == .node run node)

/-- One advance of a running node. -/
def nodeStep (s : State) (r : Run) (i : Nat) (n : Node) : State :=
  let x := ctxXlate (.control r.id) r.ctx
  let bad (s : State) (st : Nat) : State := (s.updRun r.id (fun r => { r with status := st })).updNode r.id i (fun n => { n with st := .done })
  let word (s : State) (act : State → Bool → State) : State :=
    let (s, w) := xRead x s n.operand 8
    match w with
    | .inr b => act s (cmpHolds n.cond (BitVec.ofNat 64 (natOfBytes b)) (BitVec.ofNat 64 n.value))
    | .inl (.fault _) => bad s 3
    | .inl _ => s
  match n.kind with
  | 1 => if launchGone s r.id i then endNode s r i n n.outs else s
  | 2 => word s (fun s h => endNode s r i n [if h then n.succ.getD 0 0 else n.succ.getD 1 0])
  | 3 =>
    if n.child then s
    else word s (fun s h =>
      if !h then endNode s r i n n.outs
      else if n.limit ≤ n.iters then bad s 4
      else if r.status ≠ 0 then s.updNode r.id i (fun n => { n with st := .done })
      else startChild s r i n)
  | 4 | 5 =>
    let (s, t) := xReadN x s n.operand (16 * n.cond)
    (match t with
     | .inl (.fault _) => bad s 3
     | .inl _ => s
     | .inr b =>
       match triplesOf n.cond b with
       | .inl _ => bad s 4
       | .inr ts =>
         let (s, one, all) := evalTriples x s ts
         if (if n.kind = 4 then all else one.isSome) then endNode s r i n n.outs else s)
  | 6 =>
    (match wordUpdate x (fun s ip => setDirty s r.ctx ip) s n.operand (n.extra == 1) n.value with
     | .ok s _ => endNode s r i n n.outs
     | .fault _ s => bad s 3
     | .stall s => s)
  | 7 =>
    let (s, b) := xReadN x s n.operand 64
    (match b with
     | .inl (.fault _) => bad s 3
     | .inl _ => s
     | .inr b =>
       match s.feed? r.ctx n.value with
       | some f => if f.recs.length < f.cap then endNode (feedAppend s r.ctx n.value (wordsOfBytes 16 b)) r i n n.outs else s
       | none => s)
  | _ =>
    if n.child then s
    else if n.iters = 0 then (if r.status ≠ 0 then s.updNode r.id i (fun n => { n with st := .done }) else startChild s r i n)
    else endNode s r i n n.outs

/-! ## LAUNCH.1 (R71) -/

/-- The front end starts the runs it holds, in order, while records are free. -/
def frontGraphs (s : State) : State :=
  s.ctl.heldRuns.foldl (fun s h =>
    match beginRun s h.ctx h.node true h.arg 0 none .instr with
    | .wait s => s
    | .began s id => startReady { s with ctl := { s.ctl with heldRuns := s.ctl.heldRuns.filter (fun x => x != h) } } id) s

def handNode (s : State) (ctx node arg : Nat) : State :=
  frontGraphs { s with ctl := { s.ctl with heldRuns := s.ctl.heldRuns ++ [⟨ctx, node, arg⟩] } }

/-! ## The end of a run (R284) -/

def nodeRuns (n : Node) : Bool := n.inRun && n.st == .running

/-- No node runs and none can start. -/
def runOver (r : Run) : Bool :=
  !r.nodes.any nodeRuns && (r.status != 0 || !r.nodes.any (fun n => n.inRun && n.st == .waiting && n.pred == 0))

/-- The top-level run that contains a run. -/
def rootOf (s : State) : Nat → Nat → Nat
  | 0, id => id
  | fuel + 1, id => match (s.run? id).bind (fun r => r.parent) with
    | some p => rootOf s fuel p.1
    | none => id

/-- Every record is in use, and in every run only nodes that wait for a record (R283). -/
def runDeadlock (s : State) : Bool :=
  let busy (n : Node) : Bool := nodeRuns n && !n.child && !n.want
  !runsFree s && !s.ctl.runs.any (fun r => r.nodes.any busy) &&
    s.ctl.runs.all (fun r => s.ctl.runs.any (fun q => rootOf s 16 q.id == rootOf s 16 r.id && q.nodes.any (fun n => nodeRuns n && n.want)))

/-- The nested run that started last. -/
def lastNested (s : State) : Option Run :=
  (s.ctl.runs.filter (fun r => r.parent.isSome)).foldl (fun a r => match a with | none => some r | some b => if b.order < r.order then some r else a) none

/-- Write the completion word and free the record; the parent's node or the packet learns of it. -/
def closeRun (s : State) (r : Run) : State :=
  let (s, ok) := completionWord s (.control r.id) r.ctx r.doneaddr r.donetag r.status
  if !ok then s
  else
    let s := { s with ctl := { s.ctl with runs := s.ctl.runs.filter (fun x => x.id != r.id) } }
    match r.parent with
    | none => launchOver s r.src false
    | some (p, i) =>
      let s := s.updNode p i (fun n => { n with child := false })
      if r.status = 0 then s else (s.updRun p (fun r => { r with status := 4 })).updNode p i (fun n => { n with st := .done })

/-- Nodes that wait for a record try again. -/
def retryWants (s : State) : State :=
  s.ctl.runs.foldl (fun s r =>
    (r.nodes.zip (List.range r.nodes.length)).foldl (fun s x => if x.1.want && runsFree s && r.status == 0 then startChild s r x.2 x.1 else s) s) s

def runEnd (s : State) (id : Nat) : State :=
  match s.run? id with
  | none => s
  | some r =>
    if runOver r then frontGraphs (retryWants (closeRun s r))
    else if runDeadlock s && (lastNested s).map (fun x => x.id) == some id then
      let root := rootOf s 16 id
      let fail (s : State) (i : Nat) : State := s.updRun i (fun r => { r with status := 4, nodes := r.nodes.map (fun n => if n.want then { n with st := .done, want := false } else n) })
      match (fail s id).run? id with
      | some r => closeRun (fail s root) r
      | none => s
    else s

/-! ## The meanings -/

/-- LAUNCH.1 (R71). -/
def execLaunchNode (f : XForm) (s : State) : Host.Outcome State Fault Refusal :=
  slotStep (.launchNode f) (fun k s => launchEff f 64 (fun s h x => handNode s k.ctx h x) k s) s

/-- GRAPH_NODE_COMPLETE (R283): a running node takes its next step. -/
def execGraphNodeComplete (run node : Nat) (s : State) : Host.Outcome State Fault Refusal :=
  let s := startReady (frontGraphs s) run
  match s.run? run with
  | none => .next s
  | some r =>
    match r.nodes[node]? with
    | some n => .next (if nodeRuns n then nodeStep s r node n else s)
    | none => .next s

/-- GRAPH_RUN_END (R283, R284). -/
def execGraphRunEnd (run : Nat) (s : State) : Host.Outcome State Fault Refusal := .next (runEnd (frontGraphs s) run)

end Sys2Proof.Machine
end

