-- ==== Sys2Proof/Machine/Queue.lean ====
section
/-! DEFINITION. Queues (R267 to R276): their records, wakes, mapping to hardware slots, packets and their
completion, wait packets, and the error state. -/

namespace Sys2Proof.Machine

/-! ## Reading and writing for a queue -/

/-- Every address of a queue is translated as its ring is (R268). -/
def Queue.xlate (q : Queue) : Xlate := fun s va acc =>
  if q.pasidv then atsXlate s q.pasid va else translate s (.queue q.part q.qid) controlCore q.ctx va acc

/-- Hardware sets D for a page of the context; a host page has none. -/
def Queue.dirty (q : Queue) (s : State) (ip : Nat) : State := if q.pasidv then s else setDirty s q.ctx ip

def Queue.upd (q : Queue) (s : State) (f : Queue → Queue) : State := s.updQueue q.part q.qid f
/-- The record as it now stands. -/
def Queue.now (q : Queue) (s : State) : Queue := (s.queue? q.part q.qid).getD q

/-- The queue enters the error state (R271): 1 type, 2 field, 3 compare, 4 alignment, 5 fault. -/
def queueError (s : State) (q : Queue) (n idx : Nat) : State :=
  let s := q.upd s (fun q => { q with state := 2, pwake := none, watch := false })
  let r : Record := ⟨q.ctx, 0x11, 0, n, idx⟩
  postToOperator (postOwner s q.ctx q.vec r) q.ctx r

/-! ## Work and wait conditions -/

def Queue.hasWork (q : Queue) : Bool := q.wr != q.rd

/-- Read WRIDX (R267): an idle queue with work becomes active (R272). -/
def readIndex (s : State) (q : Queue) : State :=
  if 2 ≤ q.state then s
  else
    let (s, r) := xRead q.xlate s q.idx 8
    match r with
    | .inl (.fault _) => queueError s q 5 q.rd
    | .inl _ => s
    | .inr b =>
      let wr := natOfBytes b
      q.upd s (fun q => { q with wr := wr, state := if q.state = 0 ∧ wr ≠ q.rd then 1 else q.state })

def markDone (idx : Nat) (a : Accepted) : Accepted := if a.idx == idx then { a with done := true } else a

/-- The wait packet completes. -/
def waitOver (s : State) (q : Queue) (idx : Nat) : State :=
  q.upd s (fun q => { q with wait := none, watch := false, accepted := q.accepted.map (markDone idx) })

/-- Store WAITANY's index; false: the store stalls. One that faults is not made. -/
def storeResult (s : State) (q : Queue) (addr i : Nat) : State × Bool :=
  if addr = 0 then (s, true)
  else
    let (s, r) := q.xlate s addr .write
    match r with
    | .ok pa ip =>
      let g := s.gwctOf (sectorOf pa)
      (q.upd (q.dirty (devWrite s pa (bytesOfNat 8 i)) ip) (fun q => { q with gwct := max q.gwct g }), true)
    | .fault _ => (s, true)
    | .stall _ => (s, false)

/-- Whether a queue's wait condition holds now, and the lowest triple that holds. -/
def waitHolds (s : State) (q : Queue) (w : WaitState) : State × Bool × Nat :=
  let (s, one, all) := evalTriples q.xlate s w.triples
  (s, if w.all then all else one.isSome, one.getD 0)

/-- Evaluate a wait packet of a mapped queue: it completes if its condition holds (R268, R269). -/
def evalWait (s : State) (q : Queue) : State :=
  match q.wait with
  | none => s
  | some w =>
    if q.pasidv && s.ctl.draining.any (fun d => d.1 == q.pasid) then (if q.state = 3 then waitOver s q w.idx else queueError s q 5 w.idx)
    else
      let (s, ok, i) := waitHolds s q w
      if !ok then s
      else
        let (s, done) := if w.all then (s, true) else storeResult s q w.result i
        if done then waitOver s q w.idx else s

/-! ## Slots (R273 to R276, R288) -/

def mappedIn (s : State) (part : Nat) : Nat := (s.ctl.queues.filter (fun q => q.part == part && q.slot.isSome)).length
def mappedCount (s : State) : Nat := (s.ctl.queues.filter (fun q => q.slot.isSome)).length
def freeSlot (s : State) : Option Nat := (List.range 128).find? (fun n => !s.ctl.queues.any (fun q => q.slot == some n))
def slotQuota (s : State) (part : Nat) : Nat := ((s.ctl.partitions.find? (fun p => p.part == part)).map (fun p => p.slots)).getD 0

/-- Slots that fixed partitions with a pending wake may still claim. -/
def slotsHeld (s : State) : Nat :=
  sumOf (fun p => if p.part != 0 && s.ctl.queues.any (fun q => q.part == p.part && q.pwake.isSome) then p.slots - mappedIn s p.part else 0) s.ctl.partitions

/-- A queue may take one more slot now. -/
def mayMap (s : State) (q : Queue) : Bool :=
  (freeSlot s).isSome &&
    (if q.part = 0 then mappedCount s + slotsHeld s < 128 else mappedIn s q.part < slotQuota s q.part)

/-- A queue takes a slot: the pair reads its index and looks at its wait packet. -/
def mapQueue (s : State) (q : Queue) : State :=
  match freeSlot s with
  | none => s
  | some n =>
    let s := q.upd s (fun q => { q with slot := some n, mappedAt := s.now, pwake := none, watch := false })
    let s := readIndex s (q.now s)
    evalWait s (q.now s)

/-- A queue leaves its slot (R273, R275). -/
def unmapQueue (s : State) (q : Queue) : State :=
  let room := (s.ctl.queues.filter (fun x => x.watch)).length < 4096
  q.upd s (fun q => { q with slot := none, watch := q.state != 2 && q.wait.isSome && room,
                             pwake := if q.state = 1 ∧ q.wait.isNone ∧ q.hasWork then some s.now else none })

/-- A before B in R275's choice: no work, blocked in a wait, longest mapped. -/
def choiceRank (q : Queue) : Nat := if q.wait.isSome then 1 else if q.hasWork && q.state != 2 then 2 else 0
def choiceBefore (a b : Queue) : Bool :=
  choiceRank a < choiceRank b || (choiceRank a == choiceRank b && (a.mappedAt < b.mappedAt || (a.mappedAt == b.mappedAt && a.slot.getD 0 < b.slot.getD 0)))

def bestOf (before : Queue → Queue → Bool) (l : List Queue) : Option Queue :=
  l.foldl (fun a q => match a with | none => some q | some b => if before q b then some q else a) none

/-- Unpinned mapped queues whose unmapping lets `w` take a slot. -/
def victimsFor (s : State) (w : Queue) : List Queue :=
  s.ctl.queues.filter (fun v => v.slot.isSome && !v.pin && mayMap (unmapQueue s v) w)

def wakeBefore (a b : Queue) : Bool := a.pwake.getD 0 < b.pwake.getD 0
def pendingWakes (s : State) : List Queue := s.ctl.queues.filter (fun q => q.pwake.isSome && q.slot.isNone)

/-- Map the oldest pending wake that may take a slot. -/
def mapOldest (s : State) : State :=
  match bestOf wakeBefore ((pendingWakes s).filter (mayMap s)) with
  | some q => mapQueue s q
  | none => s

/-- A queue gains a pending wake: it is mapped at once where a slot is free; a pinned queue with work always. -/
def gainWake (s : State) (q : Queue) : State :=
  let s := q.upd s (fun q => { q with pwake := some (q.pwake.getD s.now) })
  let q := q.now s
  if mayMap s q then mapQueue s q
  else if q.pin then
    match bestOf choiceBefore (victimsFor s q) with
    | some v => mapQueue (unmapQueue s v) q
    | none => s
  else s

/-! ## Wakes (R270) -/

/-- The pair takes a wake. -/
def takeWake (s : State) (q : Queue) : State :=
  let s := s.updCtx q.ctx (fun c => { c with lastWake := some s.now })
  let s := readIndex s q
  let q := q.now s
  if q.slot.isSome then evalWait s q
  else if 2 ≤ q.state then s
  else
    match q.wait with
    | some w =>
      let (s, ok, _) := waitHolds s q w
      if ok then gainWake s (q.now s) else s
    | none => if q.hasWork then gainWake s q else s

/-- A wake of a queue, at most one for a context in 200 ns; one that comes sooner sets WAKEAGAIN. -/
def wakeQueue (s : State) (part qid : Nat) : State :=
  match s.queue? part qid with
  | none => s
  | some q =>
    if 2 ≤ q.state then s
    else
      let c := s.getCtx q.ctx
      let soon := (match c.lastWake with | some t => s.now < t + 200 | none => false) || !c.flagged.isEmpty
      if !soon then takeWake s q
      else if q.again then s
      else
        let s := q.upd s (fun q => { q with again := true })
        (s.updCtx q.ctx (fun c => { c with flagged := c.flagged ++ [qid] })).count q.ctx 0x0012 1

/-- The 200 ns interval of a context ends. -/
def wakeInterval (s : State) (ctx : Nat) : State :=
  let c := s.getCtx ctx
  match c.flagged, c.lastWake with
  | qid :: rest, some t =>
    if s.now < t + 200 then s
    else
      let s := s.updCtx ctx (fun c => { c with flagged := rest })
      match s.queue? c.part qid with
      | none => s
      | some q =>
        let s := q.upd s (fun q => { q with again := false })
        takeWake s (q.now s)
  | _, _ => s

/-! ## Packets (R268, R271) -/

/-- First byte of the body that a type never uses, and whether it uses byte 4. -/
def bodyEnd (t : Nat) : Nat :=
  match t with
  | 1 | 2 | 4 => 24
  | 3 => 16
  | 5 | 7 => 28
  | 6 => 18
  | _ => 8

def usesByte4 (t : Nat) : Bool := t == 2 || t == 3 || t == 4 || t == 5 || t == 8

/-- Fields out of R268: error 2. -/
def fieldBad (t : Nat) (b : List Byte) : Bool :=
  4 ≤ leAt b 1 1 || leAt b 2 2 != 0 || leAt b 5 3 != 0 || !allZero b (bodyEnd t) (64 - bodyEnd t) || (!usesByte4 t && leAt b 4 1 != 0) ||
    (match t with
     | 2 | 5 => 2 ≤ leAt b 4 1
     | 6 => 288 ≤ leAt b 16 2
     | 8 => leAt b 4 1 < 4 || 8 < leAt b 4 1
     | _ => false) ||
    (t == 5 && leAt b 24 4 != 0xFFFFFFFF && 4096 ≤ leAt b 24 4)

/-- Addresses not aligned: error 4. -/
def alignBad (t : Nat) (b : List Byte) : Bool :=
  match t with
  | 1 => leAt b 8 8 % 128 != 0
  | 2 | 6 => leAt b 8 8 % 64 != 0
  | 3 => leAt b 8 8 % 16 != 0
  | 4 => leAt b 8 8 % 16 != 0 || leAt b 16 8 % 8 != 0
  | 5 => leAt b 8 8 % 8 != 0
  | _ => false

/-- What is wrong with a packet by itself. -/
def packetError (b : List Byte) : Option Nat :=
  let t := leAt b 0 1
  if 8 < t then some 1
  else if fieldBad t b then some 2
  else if (t = 3 ∨ t = 4) ∧ (leAt b 4 1 = 0 ∨ 12 < leAt b 4 1) then some 3
  else if alignBad t b then some 4
  else none

/-- A queue from which packets are read now: mapped and active, no wait packet in the way, its context neither
descheduled nor leaving (R273, R280). -/
def queueOpen (s : State) (q : Queue) : Bool :=
  let c := s.getCtx q.ctx
  q.slot.isSome && q.state == 1 && q.wait.isNone && (c.run == 1 || c.run == 2) && c.leave.isNone

/-- The packet at the head of a queue. -/
inductive Head where
  | none (s : State)
  | bad (s : State) (n : Nat)
  | pkt (s : State) (b : List Byte)

def headPacket (s : State) (q : Queue) : Head :=
  let (s, r) := xReadN q.xlate s (q.ring + 64 * (q.rd % 2 ^ q.log2n)) 64
  match r with
  | .inl (.fault _) => .bad s 5
  | .inl _ => .none s
  | .inr b => match packetError b with
    | some n => .bad s n
    | none => .pkt s b

def pktBarrier (b : List Byte) : Bool := leAt b 1 1 % 2 == 1 || leAt b 0 1 == 5 || leAt b 0 1 == 8
def pktIntr (b : List Byte) : Bool := bitsOf (leAt b 1 1) 1 1 == 1

/-- A packet's own act, once it stands at the head and may be accepted. -/
inductive PktOut where
  | stay (s : State)                         -- it stays at the head
  | bad (s : State) (n : Nat)
  | take (s : State) (done : Bool)           -- accepted; complete at once or later

/-- RDIDX is written with release and the packet joins the accepted ones. `take` runs its act. -/
def acceptPacket (s : State) (q : Queue) (b : List Byte) (act : State → PktOut) : State :=
  let (s, r) := q.xlate s (q.idx + 8) .write
  match r with
  | .fault _ => queueError s q 5 q.rd
  | .stall _ => s
  | .ok pa ip =>
    match act s with
    | .stay s => s
    | .bad s n => queueError s q n q.rd
    | .take s done =>
      let rd := (q.rd + 1) % 2 ^ 64
      let s := q.dirty (devWrite s pa (bytesOfNat 8 rd)) ip
      q.upd s (fun x => { x with rd := rd, accepted := x.accepted ++ [⟨q.rd, leAt b 0 1, pktIntr b, done, none⟩] })

/-- An event that accepts a packet of one type. -/
def packetEvent (r : QRef) (t : Nat) (act : Queue → List Byte → State → PktOut) (after : State → Queue → State) (s : State) : State :=
  match s.queue? r.part r.qid with
  | none => s
  | some q0 =>
    if !queueOpen s q0 then s
    else
      let s := readIndex s q0
      let q := q0.now s
      if q.state ≠ 1 ∨ !q.hasWork then s
      else match headPacket s q with
      | .none s => s
      | .bad s n => queueError s q n q.rd
      | .pkt s b =>
        if leAt b 0 1 ≠ t ∨ (pktBarrier b && !q.accepted.all (fun a => a.done)) then s
        else
          let s' := acceptPacket s q b (act q b)
          if (q.now s').rd = q.rd then s' else after s' (q.now s')

def noAfter (s : State) (_ : Queue) : State := s

/-- A launch, a graph run or a copy may be over before its packet stands among the accepted ones. -/
def settleSrc (live : State → LaunchSrc → Bool) (s : State) (q : Queue) : State :=
  let idx := (q.rd + 2 ^ 64 - 1) % 2 ^ 64
  if live s (.packet q.part q.qid idx) then s else q.upd s (fun q => { q with accepted := q.accepted.map (markDone idx) })

def launchLive (s : State) (src : LaunchSrc) : Bool :=
  s.ctl.launches.any (fun l => l.src == src) || s.ctl.waitingHdr.any (fun l => l.src == src)
def runLive (s : State) (src : LaunchSrc) : Bool := s.ctl.runs.any (fun r => r.src == src)

def nopAct (_ : Queue) (_ : List Byte) (s : State) : PktOut := .take s true

def kernelAct (q : Queue) (b : List Byte) (s : State) : PktOut :=
  .take (handLaunch s q.ctx (leAt b 8 8) (leAt b 16 8) (.packet q.part q.qid q.rd) 450) false

def graphAct (q : Queue) (b : List Byte) (s : State) : PktOut :=
  match beginRun s q.ctx (leAt b 8 8) (leAt b 4 1 == 1) (leAt b 16 8) 0 none (.packet q.part q.qid q.rd) with
  | .wait s => .stay s
  | .began s id => .take (startReady s id) false

/-- A wait packet is accepted: its triple table is read once. -/
def waitAct (all : Bool) (q : Queue) (b : List Byte) (s : State) : PktOut :=
  let n := leAt b 4 1
  let (s, r) := xReadN q.xlate s (leAt b 8 8) (16 * n)
  match r with
  | .inl (.fault _) => .bad s 5
  | .inl _ => .stay s
  | .inr t => match triplesOf n t with
    | .inl e => .bad s e
    | .inr ts =>
      .take (q.upd s (fun x => { x with wait := some ⟨q.rd, all, ts, if all then 0 else leAt b 16 8, pktIntr b, s.now⟩ })) false

def signalAct (q : Queue) (b : List Byte) (s : State) : PktOut :=
  match wordUpdate q.xlate q.dirty s (leAt b 8 8) (leAt b 4 1 == 1) (leAt b 16 8) with
  | .stall s => .stay s
  | .fault _ s => .bad s 5
  | .ok s g => .take (q.upd s (fun q => { q with gwct := max q.gwct g })) true

/-- SIGNAL completes: every wait packet of the partition is evaluated, and the named queue is woken. -/
def signalAfter (target : Nat) (s : State) (q : Queue) : State :=
  let look (s : State) (x : Queue) : State :=
    let x := x.now s
    if x.slot.isSome || x.state == 3 then evalWait s x
    else match x.wait with
      | some w => if x.state = 1 then (let (s, ok, _) := waitHolds s x w; if ok then gainWake s x else s) else s
      | none => s
  let s := (s.ctl.queues.filter (fun x => x.part == q.part)).foldl look s
  if target = 0xFFFFFFFF then s else wakeQueue s q.part target

def feedAct (q : Queue) (b : List Byte) (s : State) : PktOut :=
  let core := leAt b 16 2
  match s.feed? q.ctx core with
  | none => .stay s
  | some f =>
    if f.cap ≤ f.recs.length then .stay s
    else
      let (s, r) := xReadN q.xlate s (leAt b 8 8) 64
      match r with
      | .inl (.fault _) => .bad s 5
      | .inl _ => .stay s
      | .inr d => .take (feedAppend s q.ctx core (wordsOfBytes 16 d)) true

/-- A COPY packet is an operation of its own, under cluster 72. -/
def copyAct (q : Queue) (b : List Byte) (s : State) : PktOut :=
  let n := leAt b 24 4
  if n = 0 then .take s true
  else
    let serial := nextSerial ((s.getCtx q.ctx).serials.get 72 0)
    let o : EOp :=
      { (default : EOp) with
          id := s.nextId, cluster := 72, ctx := q.ctx, serial := serial, kind := .packet q.part q.qid q.rd,
          pieces := groupParts 64 (rowParts (leAt b 8 8, leAt b 16 8) n) }
    let s := s.updCtx q.ctx (fun c => { c with serials := c.serials.put 72 serial })
    .take (claimSectors { s with nextId := s.nextId + 1, mx := { s.mx with ops := s.mx.ops ++ [o] } } o) false

/-- A FENCE packet waits until every earlier store of the queue's packets is visible. -/
def fenceAct (q : Queue) (_ : List Byte) (s : State) : PktOut := if s.now < q.gwct then .stay s else .take s true

/-- The SIGNAL at the head names a queue to wake. -/
def headTarget (s : State) (r : QRef) : Nat :=
  match s.queue? r.part r.qid with
  | none => 0xFFFFFFFF
  | some q => match headPacket s q with
    | .pkt _ b => leAt b 24 4
    | _ => 0xFFFFFFFF

/-! ## Completion (R268, R272) -/

/-- A completed packet leaves the queue's record, with its event. -/
def packetOver (s : State) (q : Queue) (idx : Nat) : State :=
  match q.accepted.find? (fun a => a.idx == idx && a.done) with
  | none => s
  | some a =>
    let s := q.upd s (fun q => { q with accepted := q.accepted.filter (fun x => x != a) })
    let s := if a.intr then postOwner s q.ctx q.vec ⟨q.ctx, 0x10, 0, 0, 0⟩ else s
    let q := q.now s
    if q.state ≠ 1 ∨ q.hasWork ∨ !q.accepted.isEmpty then s
    else
      let s := if q.slot.isSome then readIndex s q else s
      let q := q.now s
      if q.state = 1 ∧ !q.hasWork then q.upd s (fun q => { q with state := 0 }) else s

/-- A draining queue whose last accepted packet has completed is freed. -/
def queueFree (s : State) (q : Queue) : State :=
  if q.state = 3 ∧ q.accepted.isEmpty then
    let s := s.updCtx q.ctx (fun c => { c with flagged := c.flagged.filter (fun n => n != q.qid) })
    { s with ctl := { s.ctl with queues := s.ctl.queues.filter (fun x => !(x.part == q.part && x.qid == q.qid)) } }
  else s

/-! ## Mapping events (R275) -/

/-- One queue is unmapped for the oldest pending wake that this lets in. -/
def swapFor (s : State) (eligible : Queue → Bool) : State :=
  let ws := (pendingWakes s).filter (fun w => (victimsFor s w).any eligible)
  match bestOf wakeBefore ws with
  | none => s
  | some w => match bestOf choiceBefore ((victimsFor s w).filter eligible) with
    | none => s
    | some v => mapQueue (unmapQueue s v) w

/-- Take every tick of 100 µs that has passed as one. -/
def mapTickAct (s : State) : State :=
  let t := s.now / 100000
  if t ≤ s.ctl.mapTicks then s
  else
    let s := mapOldest { s with ctl := { s.ctl with mapTicks := t } }
    if (freeSlot s).isSome then s else swapFor s (fun _ => true)

/-- A mapped unpinned queue has been blocked in one wait packet for 50 µs. -/
def quantumOver (s : State) (q : Queue) : Bool :=
  q.slot.isSome && !q.pin && (match q.wait with | some w => w.since + 50000 ≤ s.now | none => false)

/-- Every wait condition on the watch list is evaluated; those of draining queues complete. -/
def watchEval (s : State) : State :=
  (s.ctl.queues.filter (fun q => q.wait.isSome && (q.watch || q.state == 3))).foldl (fun s q =>
    let q := q.now s
    match q.wait with
    | none => s
    | some w =>
      if q.state = 3 then evalWait s q
      else
        let (s, ok, _) := waitHolds s q w
        if ok then gainWake (q.upd s (fun q => { q with watch := false })) (q.now s) else s) s

/-! ## The meanings -/

/-- NOP_PACKET (R268). -/
def execNopPacket (r : QRef) (s : State) : Host.Outcome State Fault Refusal := .next (packetEvent r 0 nopAct noAfter s)
/-- KERNEL_PACKET (R268, R57). -/
def execKernelPacket (r : QRef) (s : State) : Host.Outcome State Fault Refusal := .next (packetEvent r 1 kernelAct (settleSrc launchLive) s)
/-- GRAPH_PACKET (R268, R283). -/
def execGraphPacket (r : QRef) (s : State) : Host.Outcome State Fault Refusal := .next (packetEvent r 2 graphAct (settleSrc runLive) s)
/-- WAITALL_PACKET (R268, R269). -/
def execWaitallPacket (r : QRef) (s : State) : Host.Outcome State Fault Refusal := .next (packetEvent r 3 (waitAct true) evalWait s)
/-- WAITANY_PACKET (R268, R269). -/
def execWaitanyPacket (r : QRef) (s : State) : Host.Outcome State Fault Refusal := .next (packetEvent r 4 (waitAct false) evalWait s)
/-- WAIT_POLL (R269): the wait packet of a mapped queue is evaluated. -/
def execWaitPoll (r : QRef) (s : State) : Host.Outcome State Fault Refusal :=
  .next (match s.queue? r.part r.qid with | some q => if q.slot.isSome then evalWait s q else s | none => s)
/-- SIGNAL_PACKET (R268 to R270). -/
def execSignalPacket (r : QRef) (s : State) : Host.Outcome State Fault Refusal := .next (packetEvent r 5 signalAct (signalAfter (headTarget s r)) s)
/-- FEED_PACKET (R68, R268). -/
def execFeedPacket (r : QRef) (s : State) : Host.Outcome State Fault Refusal := .next (packetEvent r 6 feedAct noAfter s)
/-- COPY_PACKET (R268). -/
def execCopyPacket (r : QRef) (s : State) : Host.Outcome State Fault Refusal := .next (packetEvent r 7 copyAct noAfter s)
/-- FENCE_PACKET (R268). -/
def execFencePacket (r : QRef) (s : State) : Host.Outcome State Fault Refusal := .next (packetEvent r 8 fenceAct noAfter s)
/-- PACKET_COMPLETE (R268, R272, R285). -/
def execPacketComplete (r : QRef) (idx : Nat) (s : State) : Host.Outcome State Fault Refusal :=
  .next (match s.queue? r.part r.qid with | some q => packetOver s q idx | none => s)
/-- DOORBELL_WRITE (R270, R326). -/
def execDoorbellWrite (r : QRef) (s : State) : Host.Outcome State Fault Refusal := .next (wakeQueue s r.part r.qid)
/-- WAKE_INTERVAL_END (R270). -/
def execWakeIntervalEnd (ctx : Nat) (s : State) : Host.Outcome State Fault Refusal := .next (wakeInterval s ctx)
/-- WAIT_QUANTUM (R275). -/
def execWaitQuantum (r : QRef) (s : State) : Host.Outcome State Fault Refusal :=
  .next (match s.queue? r.part r.qid with | some q => if quantumOver s q then swapFor s (fun v => v.part == q.part && v.qid == q.qid) else s | none => s)
/-- MAP_TICK (R275). -/
def execMapTick (s : State) : Host.Outcome State Fault Refusal := .next (mapTickAct s)
/-- WATCH_LIST_EVAL (R275). -/
def execWatchListEval (s : State) : Host.Outcome State Fault Refusal := .next (watchEval s)
/-- QUEUE_DRAINED (R272). -/
def execQueueDrained (r : QRef) (s : State) : Host.Outcome State Fault Refusal :=
  .next (match s.queue? r.part r.qid with | some q => queueFree s q | none => s)

end Sys2Proof.Machine
end

