-- ==== Sys2Proof/Machine/Control.lean ====
section
/-! DEFINITION. Token buckets (R279, R280), slices (R281), the heartwood pair (R266), the scrub pass (R120), the
power manager (R337), start-up (R333 to R335) and resets (R338). -/

namespace Sys2Proof.Machine

/-! ## Token buckets -/

/-- One tick of a bucket that has consumed `used` (R279, R280). -/
def Bucket.tick (b : Bucket) (used : Nat) : Bucket :=
  let b := match b.pend with
    | some (r, l) => { b with rate := r, level := l, pend := none }
    | none => b
  if b.rate = unlimited then { b with used := 0 }
  else
    let depth : Int := 1024 * b.rate
    let filled : Int := max b.level (min depth (b.level + b.rate))
    { b with level := max (-549755813888) (filled - used), used := 0 }

/-- Units a context has consumed from a bucket since the last tick. -/
def bucketUse (s : State) (c : Ctx) (i : Nat) : Nat :=
  if i = 2 then Config.energy c.num s.ctl.ticks else (c.bkt.getD i default).used

def Bucket.isEmpty (b : Bucket) : Bool := b.rate != unlimited && b.level ≤ 0

/-- The lowest empty bucket of a context. -/
def emptyBucket (c : Ctx) : Option Nat := (List.range 3).find? (fun i => (c.bkt.getD i default).isEmpty)

/-- Every group halts and is evicted; without room in the save area it halts where it stands (R280, R315). -/
def deschedule (s : State) (ctx bucket : Nat) : State :=
  let (s, p) := planSave s ctx
  let s := (startLeave s ctx (.desched p)).updCtx ctx (fun c => { c with run := 4 })
  postToOperator s ctx ⟨ctx, 0x15, 0, bucket, 0⟩

/-- A descheduled context comes back. -/
def readmit (s : State) (ctx : Nat) : State :=
  match (s.getCtx ctx).leave with
  | some (.desched none) =>
    let resident := s.groups.any (fun g => g.ctx == ctx && g.resident)
    setHalt (s.updCtx ctx (fun c => { c with leave := none, run := if resident then 2 else 1 })) ctx false
  | some _ => s.updCtx ctx (fun c => { c with run := 1 })
  | none => toHead (s.updCtx ctx (fun c => { c with run := 1 })) ctx (savedBlocks s ctx)

def tickCtx (s : State) (ctx : Nat) : State :=
  let c := s.getCtx ctx
  let use (i : Nat) : Nat := bucketUse s c i
  let s := s.updCtx ctx (fun c => { c with bkt := (List.range 3).map (fun i => (c.bkt.getD i default).tick (use i)) })
  let s := (List.range 3).foldl (fun s i => s.count ctx (5 + i) (use i)) s
  let c := s.getCtx ctx
  match emptyBucket c with
  | some b => if (c.run = 1 ∨ c.run = 2) ∧ c.leave.isNone then deschedule s ctx b else s
  | none => if c.run = 4 then readmit s ctx else s

/-- One microsecond of accounting. -/
def bucketTick (s : State) : State :=
  if s.now / 1000 ≤ s.ctl.ticks then s
  else
    let s := ((s.ctxs.filter (fun c => c.run != 7)).map (fun c => c.num)).foldl tickCtx s
    { s with ctl := { s.ctl with ticks := s.ctl.ticks + 1 } }

/-! ## Slices (R281) -/

/-- Entries of other contexts of the partition that wait for a core. -/
def waitersFor (s : State) (ctx core : Nat) : List Pending :=
  (s.ctl.pendings.filter (fun p => p.1 == (s.getCtx ctx).part && (match entryCtx s p.2 with
    | some c => c != ctx && coreAllowed s c core
    | none => false))).map (fun p => p.2)

/-- Cores on which a context has groups. -/
def coresOf (s : State) (ctx : Nat) : List Nat := distinct ((s.groups.filter (fun g => g.ctx == ctx && g.resident)).map (fun g => g.core))

/-- The state with some blocks off their cores, to see what would fit. -/
def without (s : State) (ids : List Nat) : State :=
  { s with groups := s.groups.map (fun (g : Group) => if ids.contains g.block then { g with resident := false } else g)
           blocks := s.blocks.map (fun (b : Block) => if ids.contains b.id then { b with placed := false } else b) }

/-- Blocks to take off a core, youngest admission first, until the oldest waiting block fits. -/
def sliceBlocks (s : State) (core : Nat) (w : Pending) : List Nat → List Nat → List Nat
  | [], out => out
  | b :: bs, out => if entryFits (without s out) core w then out else sliceBlocks s core w bs (out ++ [b])

/-- Insert by admission, youngest first. -/
def youngFirst (l : List Block) : List Block :=
  l.foldl (fun a b => (a.filter (fun x => b.admitted < x.admitted)) ++ [b] ++ (a.filter (fun x => !(b.admitted < x.admitted)))) []

def slicePlan (s : State) (ctx : Nat) : List Nat :=
  (coresOf s ctx).flatMap (fun core =>
    match waitersFor s ctx core with
    | [] => []
    | w :: _ =>
      let mine := youngFirst (s.blocks.filter (fun b => b.ctx == ctx && b.placed && b.core == core))
      sliceBlocks s core w (mine.map (fun b => b.id)) [])

/-- Halt the groups and programs of some blocks where they stand. -/
def haltBlocks (s : State) (ids : List Nat) : State :=
  { s with groups := s.groups.map (fun (g : Group) => if ids.contains g.block then { g with halted := true } else g)
           mx := { s.mx with progs := s.mx.progs.map (fun (p : Prog) => if ids.contains p.block then { p with stopped := true } else p) } }

def sliceEndAct (s : State) (ctx : Nat) : State :=
  let c := s.getCtx ctx
  let us := c.slice.toNat % 2 ^ 20
  match c.sliceStart with
  | none => s
  | some t =>
    if us = 0 ∨ c.run ≠ 2 ∨ c.leave.isSome ∨ s.now < t + us * 1000 then s
    else
      let s := setHalt (s.updCtx ctx (fun c => { c with sliceStart := some s.now })) ctx false
      let bs := slicePlan s ctx
      if bs.isEmpty then s
      else
        let (s, p) := planSave s ctx
        match p with
        | some p => startLeave s ctx (.slice bs p)
        | none => haltBlocks s bs

/-! ## Resets (R338) -/

/-- Acts whose executing group is gone go with it; acts on a context that is gone get NOCTX. -/
def settleActs (s : State) : State :=
  let keep (a : Act) : Bool := s.groups.any (fun g => g.gid == a.gid)
  let fin (a : Act) : Act := if a.done.isNone && !s.liveCtx a.ctx then { a with done := some (statusWord 2 0) } else a
  { s with ctl := { s.ctl with acts := (s.ctl.acts.filter keep).map fin }
           fab := { s.fab with switches := s.fab.switches.filter (fun w => s.liveCtx w.ctx) } }

/-- Core reset: its groups end as double faults of class 4, its banked store is scrubbed. -/
def coreReset (s : State) (core : Nat) : State :=
  let gs := (s.groups.filter (fun g => g.core == core && g.resident && g.liveLanes != 0)).map (fun g => g.gid)
  let s := gs.foldl (fun s g => doubleFault s g 4) s
  let scrub (b : Block) : Block :=
    if b.core == core && b.placed then { b with data := (List.range b.size).map (fun i => (i, some 0)) } else b
  settleActs { s with blocks := s.blocks.map scrub }

/-- A context has a group, program, bank or engine operation on a die. -/
def onDie (s : State) (die ctx : Nat) : Bool :=
  let here (cl : Nat) : Bool := cl < 72 && dieOf cl == die
  s.groups.any (fun g => g.ctx == ctx && g.resident && here (clusterOf g.core)) || s.mx.progs.any (fun p => p.ctx == ctx && here p.cluster) ||
    s.mx.banks.any (fun b => b.ctx == ctx && b.placed && here b.cluster) || s.mx.ops.any (fun o => o.ctx == ctx && here o.cluster)

/-- Destroy contexts under R24. -/
def destroyAll (s : State) (cs : List Nat) : State := settleActs (cs.foldl (fun s c => destroyCtx s c false) s)

def liveCtxs (s : State) : List Nat := (s.ctxs.filter (fun c => c.run != 7)).map (fun c => c.num)

def dieReset (s : State) (die : Nat) : State :=
  if 3 < die then s else destroyAll s ((liveCtxs s).filter (onDie s die))

/-- Device reset: every context is destroyed, key slots and seal table are emptied, links retrain, start-up runs
again. What stays: time, memory with its owner records, sealed images, the boot record. -/
def deviceReset (s : State) (retry : Bool) : State :=
  let s := destroyAll s (liveCtxs s)
  let b : Boot := { s.boot with phase := .off, sessions := 0, meas := List.replicate 8 0, dieRun := [false, false, false, false],
                                variants := if retry then [0, 0, 0, 0] else s.boot.variants, journal := if retry then [] else s.boot.journal }
  let r := State.reset
  { r with
    agenda := s.agenda, fresh := s.fresh, nextId := s.nextId, now := s.now, cyc := s.cyc, mem := s.mem
    vis := { r.vis with frameOwner := s.vis.frameOwner }
    ctl := { r.ctl with ticks := s.ctl.ticks, mapTicks := s.ctl.mapTicks }
    vault := s.vault, fab := { r.fab with out := s.fab.out }, boot := b }

/-! ## Heartwood pair (R266) -/

/-- A checkpoint every 10 µs. -/
def checkpoint (s : State) : State :=
  if s.now < s.ctl.checkpoint + 10000 then s else { s with ctl := { s.ctl with checkpoint := s.now } }

/-- A mismatch: the pair re-executes from its checkpoint to the state it had; a second one within 1 ms resets
the device. -/
def mismatchAct (s : State) : State :=
  let again : Bool := match s.ctl.mismatch with | some t => s.now < t + 1000000 | none => false
  let s := postAllOperators { s with ctl := { s.ctl with mismatch := some s.now, ctlFaults := s.ctl.ctlFaults + 1 } } 0x14 0 0
  if again then deviceReset s false else s

/-! ## Power (R337) -/

/-- The level that power and temperature call for at once. -/
def powerRise (level : Nat) (p : PowerFacts) : Nat :=
  if p.hot105 then 3
  else if level = 0 ∧ (96 < p.percent ∨ p.hot95) then 1
  else if (level = 1 ∨ level = 2) ∧ 100 < p.percent then level + 1
  else level

/-- What would hold the device at its level. -/
def powerHolds (level : Nat) (p : PowerFacts) : Bool :=
  match level with
  | 0 => false
  | 1 => 96 < p.percent || p.hot95
  | 2 => 100 < p.percent
  | _ => 100 < p.percent || p.hot105

def setLevel (s : State) (n : Nat) (below : Option Nat) : State :=
  postAllOperators { s with ctl := { s.ctl with powerLevel := n, powerBelow := below } } 0x19 n 0

/-- A rise is at once; a fall by one level, after 10 ms below the limit. -/
def powerTick (s : State) (p : PowerFacts) : State :=
  let n := powerRise s.ctl.powerLevel p
  if s.ctl.powerLevel < n then setLevel s n none
  else if s.ctl.powerLevel = 0 ∨ powerHolds s.ctl.powerLevel p then { s with ctl := { s.ctl with powerBelow := none } }
  else match s.ctl.powerBelow with
    | none => { s with ctl := { s.ctl with powerBelow := some s.now } }
    | some t => if t + 10000000 ≤ s.now then setLevel s (s.ctl.powerLevel - 1) (some s.now) else s

/-! ## Start-up (R333 to R335) -/

/-- Extend a measurement register. -/
def extendMeas (m : List (BitVec 512)) (i : Nat) (d : BitVec 512) : List (BitVec 512) := setAt m i (Config.sha512 (m.getD i 0) d)

/-- What a start has come to: the boot record, and whether it goes on. -/
structure Start where
  boot : Boot
  ok : Bool

/-- Run a step at its variant, or at the next that passes; none passing is a recovery. -/
def runStep (st : Start) (step slot : Nat) (passes : List Bool) : Start :=
  if !st.ok then st
  else
    let v0 := if slot < 4 then st.boot.variants.getD slot 0 else 0
    let tried := (List.range passes.length).filter (fun v => v0 ≤ v)
    let pick := tried.find? (fun v => passes.getD v false)
    let log := (tried.filter (fun v => match pick with | some p => v ≤ p | none => true)).map (fun v => (⟨step, v, some (passes.getD v false)⟩ : JEntry))
    let b := { st.boot with journal := st.boot.journal ++ log }
    match pick with
    | some v => ⟨if slot < 4 then { b with variants := setAt b.variants slot v } else b, true⟩
    | none => ⟨b, false⟩

def Start.meas (st : Start) (i : Nat) : Start :=
  if st.ok then { st with boot := { st.boot with meas := extendMeas st.boot.meas i (Config.bootDigest st.boot.starts i) } } else st

def maskOfClusters (l : List Nat) : BitVec 72 := l.foldl (fun m c => m ||| BitVec.twoPow 72 c) 0

def popCount72 (m : BitVec 72) : Nat := ((List.range 72).filter (fun i => m.getLsbD i)).length

/-- Steps 1 to 8. -/
def startSteps (b : Boot) (f : BootFacts) : Start :=
  let masked := if b.variants.getD 1 0 = 0 then 0 else b.cfg.clusters &&& ~~~b.clusters
  let good := b.cfg.clusters &&& ~~~masked &&& ~~~maskOfClusters f.badClusters
  let none4 := b.cfg.clusters &&& maskOfClusters f.badClusters == 0
  let st : Start := ⟨{ b with starts := b.starts + 1, journal := [], meas := List.replicate 8 0 }, true⟩
  let st := (runStep st 1 9 [f.manifestOk]).meas 0
  let st := (runStep st 2 9 [f.configOk]).meas 2
  let st := (runStep st 3 0 [f.slotAOk && st.boot.fuse ≤ f.slotASvn, f.slotBOk && st.boot.fuse ≤ f.slotBSvn]).meas 1
  let st := { st with boot := { st.boot with slotA := f.slotASvn, slotB := f.slotBSvn } }
  let st := runStep st 4 1 [none4, 64 ≤ popCount72 good]
  let st := if st.ok then { st with boot := { st.boot with clusters := good, dieRun := [true, true, true, true] } } else st
  let st := (runStep st 5 2 [f.memFail == 0, f.memFail ≤ 1, f.memFail ≤ 2]).meas 4
  let st := { st with boot := { st.boot with rate := st.boot.variants.getD 2 0 } }
  let st := runStep st 6 9 [f.cxlOk]
  let st := (runStep st 7 3 [f.badPorts.isEmpty, true]).meas 5
  -- the block of seal-counter values is journalled before step 8
  let blk := max st.boot.sealBlock ((st.boot.sealCtr + 0xFFFFFFFF) / 0x100000000)
  let st := if st.ok then { st with boot := { st.boot with sealCtr := blk * 0x100000000, sealBlock := blk + 1 } } else st
  (runStep st 8 9 [f.controlOk]).meas 3

/-- A context that firmware creates: an operator of a partition, or the device auditor (R7). -/
def firmwareCtx (s : State) (num auth part scope : Nat) : State :=
  let c : Ctx := { Ctx.fresh num auth part with run := 1, audscope := scope, s2root := Config.firmwareRoot num, clusters := partClusters s part }
  addCtx { s with mem := memWrite s.mem (Config.firmwareTables num) } c

/-- The steps that ran above variant 0, each reported (R335). -/
def reportDegraded (s : State) : State :=
  [(3, 0), (4, 1), (5, 2), (7, 3)].foldl (fun s (x : Nat × Nat) =>
    let v := s.boot.variants.getD x.2 0
    if v = 0 then s else postAllOperators s 0x1B x.1 v) s

def startPorts (f : BootFacts) (old : List Port) (keep : Bool) : List Port :=
  old.map (fun (p : Port) =>
    let off := f.badPorts.contains p.port || (keep && p.disabled)
    { Port.reset p.port with up := !off, disabled := off, delay := f.linkDelays.getD p.port 0 })

/-- Power-good: the boot ROM's steps, then partition 0 with its operator, and the device auditor. -/
def powerOn (s : State) (f : BootFacts) : State :=
  if s.boot.phase != .off then s
  else
    let keep := s.boot.variants.getD 3 0 != 0
    let st := startSteps s.boot f
    let s := { s with boot := { st.boot with phase := if st.ok then .running else .recovery } }
    if !st.ok then s
    else
      let s := { s with fab := { s.fab with ports := startPorts f s.fab.ports keep } }
      let s := { s with ctl := { s.ctl with partitions := [⟨0, 0, 0, 0, 0, 0⟩] } }
      reportDegraded (firmwareCtx (firmwareCtx s 0 1 0 0) 1 3 0 0xFFFF)

/-! ## The meanings -/

/-- BUCKET_TICK (R280). -/
def execBucketTick (s : State) : Host.Outcome State Fault Refusal := .next (bucketTick s)
/-- SLICE_END (R281). -/
def execSliceEnd (ctx : Nat) (s : State) : Host.Outcome State Fault Refusal := .next (sliceEndAct s ctx)
/-- ECC_SCRUB (R120): every row of the core's banked store is read and corrected. -/
def execEccScrub (core : Nat) (s : State) : Host.Outcome State Fault Refusal := .next { s with coreScrub := s.coreScrub.put core s.now }
/-- HEARTWOOD_CHECKPOINT (R266). -/
def execHeartwoodCheckpoint (s : State) : Host.Outcome State Fault Refusal := .next (checkpoint s)
/-- HEARTWOOD_MISMATCH (R266). -/
def execHeartwoodMismatch (s : State) : Host.Outcome State Fault Refusal := .next (mismatchAct s)
/-- POWER_MANAGER_TICK (R337). -/
def execPowerManagerTick (p : PowerFacts) (s : State) : Host.Outcome State Fault Refusal := .next (powerTick s p)
/-- POWER_GOOD (R333 to R335). -/
def execPowerGood (f : BootFacts) (s : State) : Host.Outcome State Fault Refusal := .next (powerOn s f)
/-- CORE_CONTROL_ERROR (R338). -/
def execCoreControlError (core : Nat) (s : State) : Host.Outcome State Fault Refusal := .next (coreReset s core)
/-- DIE_CONTROL_ERROR (R338). -/
def execDieControlError (die : Nat) (s : State) : Host.Outcome State Fault Refusal := .next (dieReset s die)
/-- DIE_OVERTEMP (R337, R338). -/
def execDieOvertemp (die : Nat) (s : State) : Host.Outcome State Fault Refusal := .next (dieReset s die)
/-- FIRMWARE_WATCHDOG (R338). -/
def execFirmwareWatchdog (s : State) : Host.Outcome State Fault Refusal := .next (deviceReset s false)

end Sys2Proof.Machine
end

