-- ==== Sys2Proof/Machine/Fabric.lean ====
section
/-! DEFINITION. Fabric ports and packets (R211, R212, R318, R320, R328 to R330), device time across the fabric
(R331, R332). -/

namespace Sys2Proof.Machine

/-! ## Budgets and holds -/

/-- Bytes a packet is charged: its header flit and its data flits (R329). -/
def packetCost (p : Packet) : Nat := 64 * (1 + (p.payload.length + 63) / 64)

def State.port? (s : State) (n : Nat) : Option Port := s.fab.ports.find? (fun p => p.port == n)
def Port.works (p : Port) : Bool := p.up && !p.fault && !p.disabled

def Path.usedIn (p : Path) (w : Nat) : Nat := if p.win = w then p.used else 0

def State.updPath (s : State) (job dst vc : Nat) (f : Path → Path) : State :=
  { s with fab := { s.fab with paths := updWhere (fun p => p.job == job && p.dst == dst && p.vc == vc) f s.fab.paths } }

/-- The outbox holds its job packets: this package's offset, or the destination's, is beyond 100 ns (R332), or
the job is leaving (R320). -/
def holdsJob (s : State) (p : Packet) : Bool :=
  100 < s.fab.offset.natAbs || s.fab.peerHold.contains p.dst ||
    (match leavingSwitch s p.job with | some w => w.window * 1024 ≤ s.now | none => false)

/-- The next sequence number of a source to one chip on one VC (R318). -/
def takeSeq (s : State) (job dst vc : Nat) : State × Nat :=
  let old := s.fab.seqNos.find? (fun e => e.job == job && e.dst == dst && e.vc == vc)
  let n := (old.map (fun e => e.next)).getD 0
  let rest := s.fab.seqNos.filter (fun e => !(e.job == job && e.dst == dst && e.vc == vc))
  ({ s with fab := { s.fab with seqNos := rest ++ [⟨job, dst, vc, (n + 1) % 2 ^ 32⟩] } }, n)

/-! ## Leaving an outbox (R211) -/

/-- Take the n-th packet of a VC out of an outbox. -/
def dropNth (vc : Nat) : Nat → List OutPacket → List OutPacket
  | _, [] => []
  | n, x :: xs =>
    if x.pkt.vc = vc then (match n with | 0 => xs | n + 1 => x :: dropNth vc n xs) else x :: dropNth vc n xs

def Port.vcPackets (p : Port) (vc : Nat) : List OutPacket := p.outbox.filter (fun x => x.pkt.vc == vc)

/-- A packet of this package leaves: stamped with its window and number, charged to its path. -/
def sendOwn (s : State) (port : Nat) (x : OutPacket) : State :=
  let w := windowOf s.now
  let p := x.pkt
  match s.path? p.job p.dst p.vc with
  | none => s
  | some path =>
    if holdsJob s p || path.budget < path.usedIn w + packetCost p then s
    else
      let (s, n) := takeSeq s p.job p.dst p.vc
      let s := s.updPath p.job p.dst p.vc (fun q => { q with used := path.usedIn w + packetCost p, win := w })
      let s := s.updPort port (fun q => { q with outbox := dropNth p.vc 0 q.outbox, replays := 0 })
      let s := s.send (.packet port { p with sendWindow := w, seq := n })
      let s := s.updOp x.op (fun o => { o with outstanding := o.outstanding - 1, lastsend := max o.lastsend w })
      match jobCtx s p.job with
      | some c => s.count c.num 0x0004 (packetCost p)
      | none => s

/-- The oldest packet of a VC leaves its outbox. -/
def packetSend (s : State) (port vc : Nat) : State :=
  match s.port? port with
  | none => s
  | some q =>
    if !q.works then s
    else match (q.vcPackets vc).head? with
      | none => s
      | some x =>
        if x.transit then (s.updPort port (fun q => { q with outbox := dropNth vc 0 q.outbox, replays := 0 })).send (.packet port x.pkt)
        else sendOwn s port x

/-! ## Arrivals (R212, R320, R330) -/

/-- A packet that only passes through: to the outbox of its next port, or discarded where no path is known. -/
def passThrough (s : State) (port : Nat) (p : Packet) : State :=
  match (s.path? p.job p.dst p.vc).bind (fun x => x.ports[Config.hopIndex p.job p.dst p.vc]?) with
  | none => discardReport s port p
  | some n => s.updPort n (fun q => { q with outbox := q.outbox ++ [⟨0, p, true⟩] })

/-- A job packet enters a receive buffer, or the windfall of a job that is leaving. -/
def packetArrive (s : State) (port : Nat) (p : Packet) : State :=
  match s.port? port with
  | none => s
  | some q =>
    if !q.works || 1 < p.kind || 4096 < p.payload.length || 3 < p.vc then s
    else
      let s := s.updPort port (fun q => { q with replays := 0 })
      match jobCtx s p.job with
      | none => passThrough s port p
      | some c =>
        if c.gangPos ≠ p.dst then passThrough s port p
        else match leavingSwitch s p.job with
          | some w =>
            if w.window * 1024 ≤ s.now then windfallArrive s w port p
            else s.updPort port (fun q => { q with rx := q.rx ++ [⟨p, windowOf s.now, false⟩] })
          | none => s.updPort port (fun q => { q with rx := q.rx ++ [⟨p, windowOf s.now, false⟩] })

/-- Remove the oldest packet of a VC from a receive buffer. -/
def dropRx (vc : Nat) : List RxPacket → List RxPacket
  | [] => []
  | x :: xs => if x.pkt.vc = vc then xs else x :: dropRx vc xs

/-- Write a packet's bytes at their homes. Every sector is reached before any is written; `none`: it waits. -/
def packetWrite (s : State) (ctx port : Nat) (p : Packet) : State × Option Bool :=
  let who : Agent := .queue 255 (4 * port + p.vc)
  let (s, r) := translateAll who controlCore ctx .write (chunks (p.payload.length / 64 + 2) p.addr p.payload.length) s
  match r with
  | .inl (.fault _) => (s, some false)
  | .inl _ => (s, none)
  | .inr l =>
    if l.any (fun e => s.vis.isOwned (sectorOf e.1)) then (s, none)
    else
      let put (x : State × List Byte) (e : Nat × Nat × Nat) : State × List Byte :=
        (setDirty (homeCommit x.1 none none (sectorOf e.1) (bytesAt e.1 (x.2.take e.2.1))) ctx e.2.2, x.2.drop e.2.1)
      ((l.foldl put (s, p.payload)).1, some true)

/-- A member's packet of a collective: kept for the operation with its tag, or it cancels that operation (R240). -/
def collArrive (s : State) (ctx : Nat) (p : Packet) : State :=
  let s := { s with fab := { s.fab with coll := s.fab.coll ++ [⟨p.job, p.addr, p.payload⟩] } }
  if leAt p.payload 14 2 ≠ 2 then s
  else
    let hit (o : EOp) : Bool := o.ctx == ctx && (match o.kind with | .coll c => c.tag == p.addr | _ => false)
    match s.mx.ops.find? hit with
    | some o => cancelOp s o false
    | none => s

/-- The oldest packet of a VC in a receive buffer commits. One that its context's tables turn away is dropped. -/
def packetCommit (s : State) (port vc : Nat) : State :=
  match (s.port? port).bind (fun q => q.rx.find? (fun x => x.pkt.vc == vc)) with
  | none => s
  | some x =>
    let p := x.pkt
    let gone (s : State) : State := s.updPort port (fun q => { q with rx := dropRx vc q.rx })
    match jobCtx s p.job with
    | none => gone s
    | some c =>
      if c.run = 6 then s
      else if p.kind = 1 then collArrive (gone s) c.num p
      else
        let (s, r) := packetWrite s c.num port p
        match r with
        | none => s
        | some true => gone s
        | some false => discardReport ((gone s).count c.num 0x000C 1) port p

def deliverPacket (s : State) (d : Delivery) : State :=
  match d with
  | .arrive port p => packetArrive s port p
  | .commit port vc => packetCommit s port vc

/-! ## Discards and links (R318, R328) -/

/-- A packet that its port could not forward by the start of window send + 3. -/
def packetDiscardAct (s : State) (port vc idx : Nat) : State :=
  match (s.port? port).bind (fun q => (q.vcPackets vc)[idx]?) with
  | none => s
  | some x =>
    if !x.transit || windowOf s.now < x.pkt.sendWindow + 3 then s
    else discardReport (countDropped (s.updPort port (fun q => { q with outbox := dropNth vc idx q.outbox })) x.pkt.job) port x.pkt

/-- A discard report for a job that is leaving, in windows W to W + 3 (R320). -/
def reportArrive (s : State) (job : Nat) : State :=
  match leavingSwitch s job with
  | none => s
  | some w =>
    let n := windowOf s.now
    if w.window ≤ n ∧ n < w.window + 4 then s.updSwitch w.ctx (fun w => { w with fabinc := true }) else s

/-- Partitions with a gang path through a port. -/
def pathParts (s : State) (port : Nat) : List Nat :=
  distinct ((s.fab.paths.filter (fun p => p.ports.contains port)).filterMap (fun p => (jobCtx s p.job).map (fun c => c.part)))

/-- After eight replays of one flit the port stops and retrains. -/
def linkFaultAct (s : State) (port : Nat) : State :=
  match s.port? port with
  | none => s
  | some q =>
    if q.replays < 8 ∨ q.fault then s
    else
      let s := s.updPort port (fun q => { q with fault := true, up := false, replays := 0 })
      (pathParts s port).foldl (fun s part => match s.operatorOf part with
        | some op => postOperator s op ⟨op, 0x1A, 0, port, 0⟩
        | none => s) s

def flitReplayAct (s : State) (port : Nat) : State :=
  s.updPort port (fun q => if q.works then { q with replays := min 8 (q.replays + 1) } else q)

def retrainAct (s : State) (port delay : Nat) : State :=
  s.updPort port (fun q => if q.fault then { q with fault := false, up := true, replays := 0, delay := delay } else q)

/-! ## Time across the fabric (R331, R332) -/

/-- The offset state goes out on every port that works. -/
def sendOffset (s : State) : State :=
  let beyond := decide (100 < s.fab.offset.natAbs)
  let s := { s with fab := { s.fab with lastReport := s.now } }
  (s.fab.ports.filter Port.works).foldl (fun s p => s.send (.offset p.port beyond)) s

/-- The servo has measured an offset. A crossing of 100 ns is reported at once. -/
def ptpAct (s : State) (p : PtpFacts) : State :=
  let was := decide (100 < s.fab.offset.natAbs)
  let far := decide (50 < p.offset.natAbs)
  let f := { s.fab with offset := p.offset, ptpLocked := true, beyond50 := if far then some (s.fab.beyond50.getD s.now) else none,
                        within50 := if far then none else some (s.fab.within50.getD s.now) }
  let s := { s with fab := f }
  if was = decide (100 < p.offset.natAbs) then s else sendOffset s

def State.timebad (s : State) : Bool := s.ctl.funcs.any (fun f => f.timebad)
def setTimebad (s : State) (b : Bool) : State :=
  { s with ctl := { s.ctl with funcs := s.ctl.funcs.map (fun (f : Func) => { f with timebad := b }) } }

def timebadOn (s : State) : State :=
  match s.fab.beyond50 with
  | some t => if t + 100000000 ≤ s.now ∧ !s.timebad then postAllOperators (setTimebad s true) 0x18 (min s.fab.offset.natAbs 0xFFFF) 0 else s
  | none => s

def timebadOff (s : State) : State :=
  match s.fab.within50 with
  | some t => if t + 100000000 ≤ s.now then setTimebad s false else s
  | none => s

/-- Another package's report. -/
def offsetReportAct (s : State) (position : Nat) (beyond : Bool) : State :=
  let rest := s.fab.peerHold.filter (fun x => x != position)
  { s with fab := { s.fab with peerHold := if beyond then rest ++ [position] else rest } }

/-! ## The meanings -/

/-- PACKET_SEND (R211). -/
def execPacketSend (port vc : Nat) (s : State) : Host.Outcome State Fault Refusal := .next (packetSend s port vc)
/-- PACKET_DELIVER (R212, R320, R330). -/
def execPacketDeliver (d : Delivery) (s : State) : Host.Outcome State Fault Refusal := .next (deliverPacket s d)
/-- PACKET_DISCARD (R318). -/
def execPacketDiscard (port vc idx : Nat) (s : State) : Host.Outcome State Fault Refusal := .next (packetDiscardAct s port vc idx)
/-- LINK_FAULT (R328). -/
def execLinkFault (port : Nat) (s : State) : Host.Outcome State Fault Refusal := .next (linkFaultAct s port)
/-- FLIT_REPLAY (R328). -/
def execFlitReplay (port : Nat) (s : State) : Host.Outcome State Fault Refusal := .next (flitReplayAct s port)
/-- LINK_RETRAIN_COMPLETE (R328). -/
def execLinkRetrainComplete (port delay : Nat) (s : State) : Host.Outcome State Fault Refusal := .next (retrainAct s port delay)
/-- DISCARD_REPORT_ARRIVAL (R320). -/
def execDiscardReportArrival (job : Nat) (s : State) : Host.Outcome State Fault Refusal := .next (reportArrive s job)
/-- PTP_MESSAGE (R331, R332). -/
def execPtpMessage (p : PtpFacts) (s : State) : Host.Outcome State Fault Refusal := .next (ptpAct s p)
/-- OFFSET_REPORT (R332). -/
def execOffsetReport (position : Nat) (beyond : Bool) (s : State) : Host.Outcome State Fault Refusal := .next (offsetReportAct s position beyond)
/-- OFFSET_REPORT_SEND (R332). -/
def execOffsetReportSend (s : State) : Host.Outcome State Fault Refusal := .next (sendOffset s)
/-- TIMEBAD_SET (R332). -/
def execTimebadSet (s : State) : Host.Outcome State Fault Refusal := .next (timebadOn s)
/-- TIMEBAD_CLEAR (R332). -/
def execTimebadClear (s : State) : Host.Outcome State Fault Refusal := .next (timebadOff s)

end Sys2Proof.Machine
end

