-- ==== Sys2Proof/Machine/Host.lean ====
section
/-! DEFINITION. The host's side: registers of a function's BAR0 (R326), commands (R327, R330, R287, R291, R292),
SPDM (R333, R336), and host memory (R210). -/

namespace Sys2Proof.Machine

/-! ## Registers (R326) -/

/-- The command record at a host address, as GO reads it once (R327). -/
def readCommand (s : State) (addr : Nat) : List Byte :=
  let pa := hostBase + addr / 64 * 64
  if populated pa then s.rdBytes pa 64 else []

def fnWrite (s : State) (fn off : Nat) (v : DWord) : State :=
  let w := v.toNat % 2 ^ 32
  if s.boot.phase != .running || 16 ≤ fn then s
  else match off with
  | 0x0000 => s.updFunc fn (fun f => { f with cmdaddr := v &&& 0xFFFFFFFFFFFFFFC0 })
  | 0x0008 => if w % 2 = 1 ∧ !(s.func fn).go then s.updFunc fn (fun f => { f with go := true, cmd := readCommand s f.cmdaddr.toNat }) else s
  | 0x0010 => s.updFunc fn (fun f => { f with resident := w % 2 == 1, pending := f.pending && bitsOf w 1 1 == 0 })
  | 0x0018 => s.updFunc fn (fun f => { f with ilog := v &&& 0xFFFFFFFFFFFFFFC0 })
  | _ => s

/-- A write of a context register, or of a function's register by the host. -/
def registerWrite (s : State) (t : RegTarget) : State :=
  match t with
  | .ctxReg actor target r v => if r = 0x14 ∨ r = 0x0F ∨ r = 0x10 ∨ r = 0 ∨ 0x1D < r then s else regEvent s actor target r v.toNat
  | .fnReg fn off v => fnWrite s fn off v

/-! ## Commands (R327) -/

/-- Result of a command: done with a status and what changed, or not yet. -/
inductive CmdOut where
  | ok (s : State)
  | fail (st : Nat)
  | wait (s : State)

def cBADCMD : CmdOut := .fail 1
def cPINLIMIT : CmdOut := .fail 2
def cPASIDBUSY : CmdOut := .fail 3
def cBUDGET : CmdOut := .fail 4
def cFLIGHT : CmdOut := .fail 5
def cNOTPF : CmdOut := .fail 6
def cNOCTX : CmdOut := .fail 7

/-- A command completes. -/
def finishCmd (s : State) (fn st : Nat) : State :=
  s.updFunc fn (fun f => { f with go := false, cmd := [], cmdstat := BitVec.ofNat 32 (st * 65536) })

/-- Commands of PF0 only. -/
def pfOnly (op : Nat) : Bool := 8 ≤ op && op ≤ 10

/-- An event that completes a function's command: one with its own OP, or a record with no known OP. -/
def command (fn op : Nat) (kind : List Byte → Bool) (act : List Byte → State → CmdOut) (s : State) : State :=
  let f := s.func fn
  if !f.go || 16 ≤ fn || s.boot.phase != .running then s
  else
    let c := f.cmd
    let o := leAt c 0 1
    if c.length ≠ 64 ∨ o = 0 ∨ 10 < o then finishCmd s fn 1
    else if o ≠ op || !kind c then s
    else if pfOnly op && fn != 0 then finishCmd s fn 6
    else if !allZero c 1 3 then finishCmd s fn 1
    else match act c s with
      | .ok s => finishCmd s fn 0
      | .fail st => finishCmd s fn st
      | .wait s => s

def anyRec (_ : List Byte) : Bool := true

/-- Pins that a partition and the device may still take (R274). -/
def pinRoom (s : State) (part : Nat) : Bool :=
  (s.ctl.queues.filter (fun q => q.pin)).length < 126 &&
    (part == 0 || (s.ctl.queues.filter (fun q => q.pin && q.part == part)).length < slotQuota s part)

def drains (s : State) (pasid : Nat) : Bool := s.ctl.draining.any (fun d => d.1 == pasid)

/-- The live context of a function's partition with a number. -/
def fnCtx (s : State) (fn n : Nat) : Bool := s.liveCtx n && (s.getCtx n).part == fn

/-- Read and write the index block of a queue; 1 for a page that is missing for good. -/
def indexAccess (s : State) (q : Queue) (wr : Bool) : State × (Nat ⊕ (Nat × Nat)) :=
  let (s, r) := q.xlate s q.idx (if wr then .rmw else .read)
  match r with
  | .ok pa ip => (s, .inr (pa, ip))
  | .fault _ => (s, .inl 1)
  | .stall _ => (s, .inl 0)

/-- QCREATE: RDIDX takes the WRIDX that the device reads. -/
def qcreateAct (fn : Nat) (c : List Byte) (s : State) : CmdOut :=
  let flags := leAt c 17 1
  let q : Queue :=
    { (default : Queue) with
        part := fn, qid := leAt c 4 2, ctx := leAt c 6 2, ring := leAt c 8 8, log2n := leAt c 16 1, pasidv := flags % 2 == 1, pin := bitsOf flags 1 1 == 1,
        vec := leAt c 18 2, pasid := leAt c 20 4, idx := leAt c 24 8 }
  if !allZero c 32 32 || 4 ≤ flags || 4096 ≤ q.qid || 4096 ≤ q.ctx || q.ring % 4096 != 0 || q.log2n < 6 || 16 < q.log2n || 2048 ≤ q.vec || 2 ^ 20 ≤ q.pasid ||
      q.idx % 8 != 0 || (!q.pasidv && (2 ^ 56 ≤ q.ring || 2 ^ 56 ≤ q.idx)) || (s.queue? fn q.qid).isSome then cBADCMD
  else if !fnCtx s fn q.ctx then cNOCTX
  else if q.pasidv && drains s q.pasid then cPASIDBUSY
  else if q.pin && !pinRoom s fn then cPINLIMIT
  else
    let add (s : State) (q : Queue) : State := { s with ctl := { s.ctl with queues := s.ctl.queues ++ [q] } }
    match indexAccess s q true with
    | (s, .inl 0) => .wait s
    | (s, .inl _) => .ok (queueError (add s q) q 5 0)
    | (s, .inr (pa, ip)) =>
      let n := s.rdNat pa 8
      .ok (q.dirty (devWrite (add s { q with wr := n, rd := n }) (pa + 8) (bytesOfNat 8 n)) ip)

/-- The queue that a command names, with no other byte set. -/
def namedQueue (fn : Nat) (c : List Byte) (s : State) (used : Nat) (act : Queue → CmdOut) : CmdOut :=
  if !allZero c used (64 - used) || leAt c 4 2 ≥ 4096 then cBADCMD
  else match s.queue? fn (leAt c 4 2) with
    | none => cBADCMD
    | some q => act q

/-- QRESET, of a queue in error or idle; packets still running end first. -/
def qresetAct (fn : Nat) (c : List Byte) (s : State) : CmdOut :=
  namedQueue fn c s 6 (fun q =>
    if q.state ≠ 2 ∧ q.state ≠ 0 then cBADCMD
    else if q.pasidv && drains s q.pasid then cPASIDBUSY
    else
      let left : List Accepted := match q.wait with | some w => q.accepted.filter (fun a => a.idx != w.idx) | none => q.accepted
      if !left.isEmpty then .wait s
      else match indexAccess s q true with
        | (s, .inl 0) => .wait s
        | (_, .inl _) => cBADCMD
        | (s, .inr (pa, ip)) =>
          let s := q.dirty (devWrite s pa (bytesOfNat 16 0)) ip
          .ok (q.upd s (fun q => { q with state := 0, wr := 0, rd := 0, wait := none, accepted := [], pwake := none, watch := false })))

/-- QDESTROY: the queue drains, unmapped at once. -/
def qdestroyAct (fn : Nat) (c : List Byte) (s : State) : CmdOut :=
  namedQueue fn c s 6 (fun q =>
    if q.state = 3 then cBADCMD
    else
      let s := s.updCtx q.ctx (fun c => { c with flagged := c.flagged.filter (fun n => n != q.qid) })
      .ok (q.upd s (fun q => { q with state := 3, slot := none, pwake := none, again := false, watch := false })))

/-- QPIN. -/
def qpinAct (fn : Nat) (c : List Byte) (s : State) : CmdOut :=
  if !allZero c 6 2 || 2 ≤ leAt c 8 1 then cBADCMD
  else namedQueue fn c s 9 (fun q =>
    if q.state = 3 then cBADCMD
    else if leAt c 8 1 = 0 then .ok (q.upd s (fun q => { q with pin := false }))
    else if q.pin then .ok s
    else if !pinRoom s fn then cPINLIMIT
    else
      let s := q.upd s (fun q => { q with pin := true })
      let q := q.now s
      .ok (if q.slot.isNone && q.state == 1 && q.wait.isNone && q.hasWork then gainWake s q else s))

/-- PASIDDRAIN (R291): translations of the PASID are never used again; data fetched and not yet used goes. -/
def pasiddrainAct (fn : Nat) (c : List Byte) (s : State) : CmdOut :=
  let p := leAt c 4 4
  if !allZero c 8 56 || 2 ^ 20 ≤ p then cBADCMD
  else if drains s p then cPASIDBUSY
  else
    let s := { s with ctl := { s.ctl with draining := s.ctl.draining ++ [(p, fn)], atc := s.ctl.atc.filter (fun e => e.1 != p) } }
    .ok ((s.mx.ops.filter (fun o => o.pasid s == some p)).foldl (fun s o => finishOp s o .cancelled 0 0) s)

/-- No request under a drained PASID is outstanding. -/
def pasidReleaseAct (s : State) (p : Nat) : State :=
  match s.ctl.draining.find? (fun d => d.1 == p) with
  | none => s
  | some d =>
    if s.ctl.atsReqs.any (fun e => e.1 == p) || s.mx.ops.any (fun o => o.pasid s == some p) then s
    else
      let s := { s with ctl := { s.ctl with draining := s.ctl.draining.filter (fun x => x.1 != p) } }
      match s.operatorOf d.2 with
      | some op => postOperator s op ⟨op, 0x13, 0, p % 65536, p / 65536⟩
      | none => s

/-- The oldest outstanding request of a PASID is answered. -/
def atsResponse (s : State) (p : Nat) : State :=
  match s.ctl.atsReqs.find? (fun e => e.1 == p) with
  | none => s
  | some e =>
    { s with ctl := { s.ctl with atsReqs := s.ctl.atsReqs.erase e, atc := if drains s p then s.ctl.atc else s.ctl.atc ++ [e] } }

/-- GANGJOIN. -/
def gangjoinAct (fn : Nat) (c : List Byte) (s : State) : CmdOut :=
  let (n, pos, size, job) := (leAt c 4 4, leAt c 8 2, leAt c 10 2, leAt c 12 4)
  if !allZero c 16 48 || 4096 ≤ pos || size = 0 || 4096 < size || size ≤ pos || job = 0 then cBADCMD
  else if s.timebad then cFLIGHT
  else if !fnCtx s fn n then cNOCTX
  else if (s.getCtx n).gang || (jobCtx s job).isSome then cBADCMD
  else .ok (s.updCtx n (fun c => { c with gang := true, gangPos := pos, gangSize := size, jobTag := job }))

/-- Estimated flight time of a path in ns (R330). -/
def flightTime (s : State) (ports : List Nat) : Nat :=
  let delay (i : Nat) : Nat := if i = 0 then ((s.port? (ports.headD 0)).map (fun p => p.delay)).getD 0 else Config.peerDelay i (ports.getD i 0)
  60 * ports.length + sumOf delay (List.range ports.length)

/-- Budgets of the other paths that leave a port. -/
def portBudget (s : State) (port job dst vc : Nat) : Nat :=
  sumOf (fun p => p.budget) (s.fab.paths.filter (fun p => p.ports.head? == some port && !(p.job == job && p.dst == dst && p.vc == vc)))

/-- PATHSET. -/
def pathsetAct (_fn : Nat) (c : List Byte) (s : State) : CmdOut :=
  let (job, dst, vc, n, budget) := (leAt c 4 4, leAt c 8 2, leAt c 10 1, leAt c 11 1, leAt c 20 4)
  let ports := (List.range n).map (fun i => leAt c (12 + i) 1)
  if !allZero c 24 40 || job = 0 || 4096 ≤ dst || 3 < vc || n = 0 || 8 < n || ports.any (fun p => 12 ≤ p) then cBADCMD
  else if s.timebad || 700 < flightTime s ports then cFLIGHT
  else if 256000 < portBudget s (ports.headD 0) job dst vc + budget then cBUDGET
  else
    let rest := s.fab.paths.filter (fun p => !(p.job == job && p.dst == dst && p.vc == vc))
    .ok { s with fab := { s.fab with paths := rest ++ [⟨job, dst, vc, ports, budget, 0, 0⟩] } }

/-- PARTSET (R287, R288): the partition gets its quotas and its operator context (R7). -/
def partsetAct (c : List Byte) (s : State) : CmdOut :=
  let part := leAt c 4 1
  let clusters : BitVec 72 := BitVec.ofNat 72 (leAt c 8 9)
  let channels : BitVec 256 := BitVec.ofNat 256 (leAt c 20 32)
  let (slots, keys) := (leAt c 52 1, leAt c 54 2)
  let others := s.ctl.partitions.filter (fun p => p.part != 0 && p.part != part)
  if part = 0 || 15 < part || !allZero c 5 3 || !allZero c 17 3 || !allZero c 53 1 || !allZero c 56 8 || clusters == 0 || slots = 0 || 126 < slots ||
      4096 < keys || others.any (fun p => p.clusters &&& clusters != 0 || p.channels &&& channels != 0) || 126 < sumOf (fun p => p.slots) others + slots ||
      s.ctxs.any (fun x => x.part == part && x.run != 7) then cBADCMD
  else match freeCtx s with
    | none => cBADCMD
    | some n =>
      let rest := s.ctl.partitions.filter (fun p => p.part != part)
      let s := { s with ctl := { s.ctl with partitions := rest ++ [⟨part, clusters, channels, slots, keys, n⟩] } }
      .ok (firmwareCtx s n 1 part 0)

/-- RESET (R338) of one kind. -/
def isReset (kind : Nat) (c : List Byte) : Bool := leAt c 4 1 == kind || ((leAt c 4 1 = 0 ∨ 3 < leAt c 4 1) && kind == 1)

def resetAct (kind : Nat) (c : List Byte) (s : State) : CmdOut :=
  let n := leAt c 8 2
  let limit := if kind = 1 then 288 else if kind = 2 then 4 else 1
  if leAt c 4 1 ≠ kind || !allZero c 6 2 || !allZero c 10 54 || (if kind = 3 then 2 ≤ leAt c 5 1 else leAt c 5 1 != 0) || limit ≤ n then cBADCMD
  else .ok (if kind = 1 then coreReset s n else if kind = 2 then dieReset s n else deviceReset s (leAt c 5 1 == 1))

/-- TIMESET (R331): once, before the first PTP lock, never backwards. -/
def timesetAct (c : List Byte) (s : State) : CmdOut :=
  let t := leAt c 8 8
  if !allZero c 4 4 || !allZero c 16 48 || s.fab.ptpLocked || s.fab.timesetDone || t < s.now then cBADCMD
  else .ok { s with now := t, fab := { s.fab with timesetDone := true }, ctl := { s.ctl with ticks := t / 1000, mapTicks := t / 100000 } }

/-! ## SPDM (R333, R336) -/

/-- One response, its bytes the responder's own. -/
def respond (s : State) (k : SpdmKind) (meas : List (BitVec 512)) : State :=
  { s with fresh := s.fresh + 1 }.send (.spdm k (Config.spdmBytes s.fresh) meas)

def whenRunning (s : State) (f : State → State) : State := if s.boot.phase == .running then f s else s

/-- In recovery only measurement reports and firmware updates. -/
def spdmMeasure (s : State) : State := if s.boot.phase == .off then s else respond s .measurements s.boot.meas

def spdmExchange (s : State) : State :=
  whenRunning s (fun s => if s.boot.sessions < 64 then respond { s with boot := { s.boot with sessions := s.boot.sessions + 1 } } .keyExchange []
    else respond s .busy [])

def meas7 (s : State) (d : BitVec 512) : State :=
  whenRunning s (fun s => respond { s with boot := { s.boot with meas := extendMeas s.boot.meas 7 d } } .vendor [])

/-- A signed update of a recovering device enters image slot A and MEAS6. -/
def updateAct (s : State) (svn : Nat) (signed : Bool) (d : BitVec 512) : State :=
  if s.boot.phase != .recovery || !signed || svn < s.boot.fuse then s
  else respond { s with boot := { s.boot with slotA := svn, meas := extendMeas s.boot.meas 6 d } } .update []

/-! ## Host memory (R210) -/

def ownedAny (s : State) (addr n : Nat) : Bool := (bySector (bytesAt addr (List.replicate n 0))).any (fun e => s.vis.isOwned e.1)

/-- A CXL.mem write commits at its home; the host learns so once device time reaches its GWCT. -/
def hostWrite (s : State) (addr : Nat) (data : List Byte) : State :=
  if !(populated addr && populated (addr + data.length - 1)) || hostBase ≤ addr || ownedAny s addr data.length then s
  else
    let g := (bySector (bytesAt addr data)).foldl (fun a e => max a (s.gwctOf e.1)) s.now
    (devWrite s addr data).send (.hostWriteDone addr g)

/-- A host read of device memory reads the home. -/
def hostRead (s : State) (addr n : Nat) : State :=
  if !(populated addr && populated (addr + n - 1)) || hostBase ≤ addr || ownedAny s addr n then s else s.send (.hostRead addr (s.rdBytes addr n))

/-- A host write of host memory: copies on the device go, monitors fire. -/
def hostSnoop (s : State) (addr : Nat) (data : List Byte) : State :=
  if addr < hostBase ∨ !populated (addr + data.length - 1) then s else devWrite s addr data

/-! ## The meanings -/

/-- REGISTER_WRITE (R307, R326). -/
def execRegisterWrite (t : RegTarget) (s : State) : Host.Outcome State Fault Refusal := .next (registerWrite s t)
/-- QCREATE (R327). -/
def execQcreate (fn : Nat) (s : State) : Host.Outcome State Fault Refusal := .next (command fn 1 anyRec (qcreateAct fn) s)
/-- QRESET (R271, R327). -/
def execQreset (fn : Nat) (s : State) : Host.Outcome State Fault Refusal := .next (command fn 2 anyRec (qresetAct fn) s)
/-- QDESTROY (R272, R327). -/
def execQdestroy (fn : Nat) (s : State) : Host.Outcome State Fault Refusal := .next (command fn 3 anyRec (qdestroyAct fn) s)
/-- QPIN (R274, R327). -/
def execQpin (fn : Nat) (s : State) : Host.Outcome State Fault Refusal := .next (command fn 4 anyRec (qpinAct fn) s)
/-- PASIDDRAIN (R291, R327). -/
def execPasiddrain (fn : Nat) (s : State) : Host.Outcome State Fault Refusal := .next (command fn 5 anyRec (pasiddrainAct fn) s)
/-- PASID_RELEASE (R291). -/
def execPasidRelease (pasid : Nat) (s : State) : Host.Outcome State Fault Refusal := .next (pasidReleaseAct s pasid)
/-- GANGJOIN (R327). -/
def execGangjoin (fn : Nat) (s : State) : Host.Outcome State Fault Refusal := .next (command fn 6 anyRec (gangjoinAct fn) s)
/-- PATHSET (R329, R330). -/
def execPathset (fn : Nat) (s : State) : Host.Outcome State Fault Refusal := .next (command fn 7 anyRec (pathsetAct fn) s)
/-- PARTSET (R287, R288). -/
def execPartset (fn : Nat) (s : State) : Host.Outcome State Fault Refusal := .next (command fn 8 anyRec partsetAct s)
/-- RESET, kind 1 (R338). -/
def execResetCore (fn : Nat) (s : State) : Host.Outcome State Fault Refusal := .next (command fn 9 (isReset 1) (resetAct 1) s)
/-- RESET, kind 2 (R338). -/
def execResetDie (fn : Nat) (s : State) : Host.Outcome State Fault Refusal := .next (command fn 9 (isReset 2) (resetAct 2) s)
/-- RESET, kind 3 (R335, R338). -/
def execResetDevice (fn : Nat) (s : State) : Host.Outcome State Fault Refusal := .next (command fn 9 (isReset 3) (resetAct 3) s)
/-- TIMESET (R327, R331). -/
def execTimeset (fn : Nat) (s : State) : Host.Outcome State Fault Refusal := .next (command fn 10 anyRec timesetAct s)
/-- GET_CERTIFICATE (R336). -/
def execGetCertificate (s : State) : Host.Outcome State Fault Refusal := .next (whenRunning s (fun s => respond s .certificate []))
/-- CHALLENGE (R336). -/
def execChallenge (s : State) : Host.Outcome State Fault Refusal := .next (whenRunning s (fun s => respond s .challengeAuth s.boot.meas))
/-- GET_MEASUREMENTS (R333, R336). -/
def execGetMeasurements (s : State) : Host.Outcome State Fault Refusal := .next (spdmMeasure s)
/-- KEY_EXCHANGE (R336). -/
def execKeyExchange (s : State) : Host.Outcome State Fault Refusal := .next (spdmExchange s)
/-- FINISH (R336). -/
def execFinish (s : State) : Host.Outcome State Fault Refusal :=
  .next (whenRunning s (fun s => if s.boot.sessions = 0 then s else respond s .finish []))
/-- MEAS7_EXTEND (R333). -/
def execMeas7Extend (d : BitVec 512) (s : State) : Host.Outcome State Fault Refusal := .next (meas7 s d)
/-- FIRMWARE_UPDATE (R333). -/
def execFirmwareUpdate (svn : Nat) (signed : Bool) (d : BitVec 512) (s : State) : Host.Outcome State Fault Refusal := .next (updateAct s svn signed d)
/-- HOST_MEM_WRITE (R210). -/
def execHostMemWrite (addr : Nat) (data : List Byte) (s : State) : Host.Outcome State Fault Refusal := .next (whenRunning s (fun s => hostWrite s addr data))
/-- HOST_MEM_READ (R210). -/
def execHostMemRead (addr n : Nat) (s : State) : Host.Outcome State Fault Refusal := .next (whenRunning s (fun s => hostRead s addr n))
/-- HOST_SNOOP_INVALIDATE (R210, R215). -/
def execHostSnoopInvalidate (addr : Nat) (data : List Byte) (s : State) : Host.Outcome State Fault Refusal := .next (hostSnoop s addr data)
/-- ATS_TRANSLATION_RESPONSE (R291). -/
def execAtsTranslationResponse (pasid : Nat) (s : State) : Host.Outcome State Fault Refusal := .next (atsResponse s pasid)

end Sys2Proof.Machine
end

