-- ==== Sys2Proof/Machine/Lane.lean ====
section
/-! DEFINITION. Operations across the lanes of one issue (R133 to R136). -/

namespace Sys2Proof.Machine

/-- Whether a number is a power of two. -/
def isPow2 (n : Nat) : Bool := n != 0 && 2 ^ Nat.log2 n == n

/-- The source lane of SHFL (R134). -/
def shflSrc (op : ShflOp) (W l q : Nat) : Option Nat :=
  let base := l - l % W
  match op with
  | .idx => some (base + q % W)
  | .up => if base + q ≤ l then some (l - q) else none
  | .down => if l + q < base + W then some (l + q) else none
  | .xor => some (base + (Nat.xor (l % W) (q % W)))

def shflEff (m : ShflOp) (f : VForm) (k : SlotCtx) (s : State) : Out :=
  match k.lanes with
  | [] => outNone s
  | l0 :: _ =>
    if !k.uniform s f.c then outTrap s k.ex .uniformity
    else
      let W := if k.rd s f.c l0 = 0 then k.g.hdr.width else (k.rd s f.c l0).toNat
      if !isPow2 W || W > k.g.hdr.width then outTrap s k.ex .bounds
      else
        laneWord k s (fun l =>
          match shflSrc m W l (k.rd s f.b l).toNat with
          | some x => if k.ex.getLsbD x then k.rd s f.a x else k.rd s f.a l
          | none => k.rd s f.a l)

/-- The lanes of the executing set whose SRCA is not zero. -/
def votes (f : VForm) (k : SlotCtx) (s : State) : Mask := maskOf (k.lanes.filter (fun l => k.rd s f.a l != 0))

def voteEff (m : VoteOp) (f : VForm) (k : SlotCtx) (s : State) : Out :=
  match m with
  | .all => outAll k s [boolWord (votes f k s == k.ex)]
  | .any => outAll k s [boolWord (votes f k s != 0)]
  | .ballot => outAll k s ((List.range (max 1 (k.g.hdr.width / 32))).map (fun j => (votes f k s).extractLsb' (32 * j) 32))

def reduxOf (m : ReduxOp) (xs : List Word) : Word :=
  match m with
  | .add => xs.foldl (fun a x => a + x) 0
  | .min => xs.tail.foldl (iminOf .s) (xs.headD 0)
  | .max => xs.tail.foldl (imaxOf .s) (xs.headD 0)
  | .and => xs.foldl (fun a x => a &&& x) (BitVec.allOnes 32)
  | .or => xs.foldl (fun a x => a ||| x) 0

/-- SHFL (R134). -/
def execShfl (m : ShflOp) (f : VForm) (s : State) : Host.Outcome State Fault Refusal :=
  slotStep (.shfl m f) (shflEff m f) s
/-- VOTE (R135). -/
def execVote (m : VoteOp) (f : VForm) (s : State) : Host.Outcome State Fault Refusal :=
  slotStep (.vote m f) (voteEff m f) s
/-- REDUX (R136). -/
def execRedux (m : ReduxOp) (f : VForm) (s : State) : Host.Outcome State Fault Refusal :=
  slotStep (.redux m f) (fun k s => outAll k s [reduxOf m (k.lanes.map (k.rd s f.a))]) s

end Sys2Proof.Machine
end

