-- ==== Sys2Proof/Machine/Dispatch.lean ====
section
/-! DEFINITION. The meaning of every row of the table: one arm per constructor, one direct call each. -/

namespace Sys2Proof.Machine

open Sys2Proof

def exec (i : Instr) (s : State) : Host.Outcome State Fault Refusal :=
  match i with
  | .clauseIssue => Sys2Proof.Machine.execClauseIssue s
  | .iadd m f => Sys2Proof.Machine.execIadd m f s
  | .isub m f => Sys2Proof.Machine.execIsub m f s
  | .imul f => Sys2Proof.Machine.execImul f s
  | .imulh m f => Sys2Proof.Machine.execImulh m f s
  | .imad m f => Sys2Proof.Machine.execImad m f s
  | .imin m f => Sys2Proof.Machine.execImin m f s
  | .imax m f => Sys2Proof.Machine.execImax m f s
  | .iabs f => Sys2Proof.Machine.execIabs f s
  | .and f => Sys2Proof.Machine.execAnd f s
  | .or f => Sys2Proof.Machine.execOr f s
  | .xor f => Sys2Proof.Machine.execXor f s
  | .andn f => Sys2Proof.Machine.execAndn f s
  | .shl f => Sys2Proof.Machine.execShl f s
  | .shr f => Sys2Proof.Machine.execShr f s
  | .sar f => Sys2Proof.Machine.execSar f s
  | .rol f => Sys2Proof.Machine.execRol f s
  | .popc f => Sys2Proof.Machine.execPopc f s
  | .clz f => Sys2Proof.Machine.execClz f s
  | .brev f => Sys2Proof.Machine.execBrev f s
  | .bfe m f => Sys2Proof.Machine.execBfe m f s
  | .bfi f => Sys2Proof.Machine.execBfi f s
  | .icmp m f => Sys2Proof.Machine.execIcmp m f s
  | .sel f => Sys2Proof.Machine.execSel f s
  | .mov f => Sys2Proof.Machine.execMov f s
  | .movi f => Sys2Proof.Machine.execMovi f s
  | .plop f => Sys2Proof.Machine.execPlop f s
  | .dot4 m f => Sys2Proof.Machine.execDot4 m f s
  | .fadd f => Sys2Proof.Machine.execFadd f s
  | .fsub f => Sys2Proof.Machine.execFsub f s
  | .fmul f => Sys2Proof.Machine.execFmul f s
  | .ffma f => Sys2Proof.Machine.execFfma f s
  | .fmin f => Sys2Proof.Machine.execFmin f s
  | .fmax f => Sys2Proof.Machine.execFmax f s
  | .fcmp m f => Sys2Proof.Machine.execFcmp m f s
  | .frnd m f => Sys2Proof.Machine.execFrnd m f s
  | .fclass f => Sys2Proof.Machine.execFclass f s
  | .frcp f => Sys2Proof.Machine.execFrcp f s
  | .frsq f => Sys2Proof.Machine.execFrsq f s
  | .fexp2 f => Sys2Proof.Machine.execFexp2 f s
  | .flog2 f => Sys2Proof.Machine.execFlog2 f s
  | .fsin f => Sys2Proof.Machine.execFsin f s
  | .fcos f => Sys2Proof.Machine.execFcos f s
  | .cvt m f => Sys2Proof.Machine.execCvt m f s
  | .pkadd m f => Sys2Proof.Machine.execPkadd m f s
  | .pkmul m f => Sys2Proof.Machine.execPkmul m f s
  | .pkfma m f => Sys2Proof.Machine.execPkfma m f s
  | .fmtset f => Sys2Proof.Machine.execFmtset f s
  | .fmtget f => Sys2Proof.Machine.execFmtget f s
  | .lmul f => Sys2Proof.Machine.execLmul f s
  | .lsum f => Sys2Proof.Machine.execLsum f s
  | .shfl m f => Sys2Proof.Machine.execShfl m f s
  | .vote m f => Sys2Proof.Machine.execVote m f s
  | .redux m f => Sys2Proof.Machine.execRedux m f s
  | .ldb m f => Sys2Proof.Machine.execLdb m f s
  | .stb m f => Sys2Proof.Machine.execStb m f s
  | .spill f => Sys2Proof.Machine.execSpill f s
  | .fill f => Sys2Proof.Machine.execFill f s
  | .hbind f => Sys2Proof.Machine.execHbind f s
  | .hinfo f => Sys2Proof.Machine.execHinfo f s
  | .hinv f => Sys2Proof.Machine.execHinv f s
  | .ldt f => Sys2Proof.Machine.execLdt f s
  | .stt f => Sys2Proof.Machine.execStt f s
  | .ldg m f => Sys2Proof.Machine.execLdg m f s
  | .stg m f => Sys2Proof.Machine.execStg m f s
  | .atom m f => Sys2Proof.Machine.execAtom m f s
  | .cas f => Sys2Proof.Machine.execCas f s
  | .lr f => Sys2Proof.Machine.execLr f s
  | .sc f => Sys2Proof.Machine.execSc f s
  | .pref f => Sys2Proof.Machine.execPref f s
  | .storeCommit gid idx => Sys2Proof.Machine.execStoreCommit gid idx s
  | .copyGrant gid idx => Sys2Proof.Machine.execCopyGrant gid idx s
  | .loadPerform gid idx grant => Sys2Proof.Machine.execLoadPerform gid idx grant s
  | .fence m f => Sys2Proof.Machine.execFence m f s
  | .arm f => Sys2Proof.Machine.execArm f s
  | .waitm f => Sys2Proof.Machine.execWaitm f s
  | .waitmTimeout r => Sys2Proof.Machine.execWaitmTimeout r s
  | .time f => Sys2Proof.Machine.execTime f s
  | .cpy f => Sys2Proof.Machine.execCpy f s
  | .gath f => Sys2Proof.Machine.execGath f s
  | .scat f => Sys2Proof.Machine.execScat f s
  | .coll m f => Sys2Proof.Machine.execColl m f s
  | .engineSourceRead o piece => Sys2Proof.Machine.execEngineSourceRead o piece s
  | .engineSectorCommit o piece => Sys2Proof.Machine.execEngineSectorCommit o piece s
  | .engineScratchLand o piece => Sys2Proof.Machine.execEngineScratchLand o piece s
  | .engineOpDone o => Sys2Proof.Machine.execEngineOpDone o s
  | .engineOpFault o why => Sys2Proof.Machine.execEngineOpFault o why s
  | .ftest f => Sys2Proof.Machine.execFtest f s
  | .fwait f => Sys2Proof.Machine.execFwait f s
  | .fcancel f => Sys2Proof.Machine.execFcancel f s
  | .awinit f => Sys2Proof.Machine.execAwinit f s
  | .await f => Sys2Proof.Machine.execAwait f s
  | .awadd f => Sys2Proof.Machine.execAwadd f s
  | .fork f => Sys2Proof.Machine.execFork f s
  | .rdv f => Sys2Proof.Machine.execRdv f s
  | .br m f => Sys2Proof.Machine.execBr m f s
  | .bra f => Sys2Proof.Machine.execBra f s
  | .jmpi f => Sys2Proof.Machine.execJmpi f s
  | .call f => Sys2Proof.Machine.execCall f s
  | .calli f => Sys2Proof.Machine.execCalli f s
  | .ret f => Sys2Proof.Machine.execRet f s
  | .kset f => Sys2Proof.Machine.execKset f s
  | .join f => Sys2Proof.Machine.execJoin f s
  | .joinw f => Sys2Proof.Machine.execJoinw f s
  | .plset f => Sys2Proof.Machine.execPlset f s
  | .plbr f => Sys2Proof.Machine.execPlbr f s
  | .exit f => Sys2Proof.Machine.execExit f s
  | .nop f => Sys2Proof.Machine.execNop f s
  | .yield f => Sys2Proof.Machine.execYield f s
  | .wdog f => Sys2Proof.Machine.execWdog f s
  | .fairHoldExpire gid => Sys2Proof.Machine.execFairHoldExpire gid s
  | .watchdog gid => Sys2Proof.Machine.execWatchdog gid s
  | .spawn m f => Sys2Proof.Machine.execSpawn m f s
  | .seedbedTimer core ctx key => Sys2Proof.Machine.execSeedbedTimer core ctx key s
  | .launch f => Sys2Proof.Machine.execLaunch f s
  | .launchNode f => Sys2Proof.Machine.execLaunchNode f s
  | .wid f => Sys2Proof.Machine.execWid f s
  | .barArrive f => Sys2Proof.Machine.execBarArrive f s
  | .barWait f => Sys2Proof.Machine.execBarWait f s
  | .barSync f => Sys2Proof.Machine.execBarSync f s
  | .feedpop m f => Sys2Proof.Machine.execFeedpop m f s
  | .feedpush f => Sys2Proof.Machine.execFeedpush f s
  | .sleep f => Sys2Proof.Machine.execSleep f s
  | .sleepTimeout r => Sys2Proof.Machine.execSleepTimeout r s
  | .pairBind f => Sys2Proof.Machine.execPairBind f s
  | .pairUnbind f => Sys2Proof.Machine.execPairUnbind f s
  | .shape f => Sys2Proof.Machine.execShape f s
  | .aballoc f => Sys2Proof.Machine.execAballoc f s
  | .abfree f => Sys2Proof.Machine.execAbfree f s
  | .abgrant f => Sys2Proof.Machine.execAbgrant f s
  | .abgrantRevoke f => Sys2Proof.Machine.execAbgrantRevoke f s
  | .aclr f => Sys2Proof.Machine.execAclr f s
  | .mma m f => Sys2Proof.Machine.execMma m f s
  | .mmap m f => Sys2Proof.Machine.execMmap m f s
  | .guide f => Sys2Proof.Machine.execGuide f s
  | .sfence f => Sys2Proof.Machine.execSfence f s
  | .arrayOpStart cluster => Sys2Proof.Machine.execArrayOpStart cluster s
  | .arrayOpComplete cluster pick => Sys2Proof.Machine.execArrayOpComplete cluster pick s
  | .pairWaitExpire cluster => Sys2Proof.Machine.execPairWaitExpire cluster s
  | .ard f => Sys2Proof.Machine.execArd f s
  | .awr f => Sys2Proof.Machine.execAwr f s
  | .trbp f => Sys2Proof.Machine.execTrbp f s
  | .trap f => Sys2Proof.Machine.execTrap f s
  | .tret f => Sys2Proof.Machine.execTret f s
  | .rdsr f => Sys2Proof.Machine.execRdsr f s
  | .wrsr f => Sys2Proof.Machine.execWrsr f s
  | .place f => Sys2Proof.Machine.execPlace f s
  | .placeRestore f => Sys2Proof.Machine.execPlaceRestore f s
  | .evict f => Sys2Proof.Machine.execEvict f s
  | .evictDestroy f => Sys2Proof.Machine.execEvictDestroy f s
  | .evictSeal f => Sys2Proof.Machine.execEvictSeal f s
  | .evictDiscard f => Sys2Proof.Machine.execEvictDiscard f s
  | .evictionComplete ctx => Sys2Proof.Machine.execEvictionComplete ctx s
  | .cntrd f => Sys2Proof.Machine.execCntrd f s
  | .bktrd f => Sys2Proof.Machine.execBktrd f s
  | .keybind f => Sys2Proof.Machine.execKeybind f s
  | .gswitchSave f => Sys2Proof.Machine.execGswitchSave f s
  | .gswitchRestore f => Sys2Proof.Machine.execGswitchRestore f s
  | .bsad4 f => Sys2Proof.Machine.execBsad4 f s
  | .groupRelease gid => Sys2Proof.Machine.execGroupRelease gid s
  | .launchComplete launch => Sys2Proof.Machine.execLaunchComplete launch s
  | .blockAdmit core => Sys2Proof.Machine.execBlockAdmit core s
  | .stalledAccessRetry ctx ipage => Sys2Proof.Machine.execStalledAccessRetry ctx ipage s
  | .tinvStage1 actor target value => Sys2Proof.Machine.execTinvStage1 actor target value s
  | .tinvStage2 actor target value => Sys2Proof.Machine.execTinvStage2 actor target value s
  | .htabWrite actor lim value => Sys2Proof.Machine.execHtabWrite actor lim value s
  | .registerWrite t => Sys2Proof.Machine.execRegisterWrite t s
  | .packetSend port vc => Sys2Proof.Machine.execPacketSend port vc s
  | .packetDeliver d => Sys2Proof.Machine.execPacketDeliver d s
  | .packetDiscard port vc idx => Sys2Proof.Machine.execPacketDiscard port vc idx s
  | .linkFault port => Sys2Proof.Machine.execLinkFault port s
  | .ptpMessage p => Sys2Proof.Machine.execPtpMessage p s
  | .offsetReport position beyond => Sys2Proof.Machine.execOffsetReport position beyond s
  | .offsetReportSend => Sys2Proof.Machine.execOffsetReportSend s
  | .timebadSet => Sys2Proof.Machine.execTimebadSet s
  | .timebadClear => Sys2Proof.Machine.execTimebadClear s
  | .gswitchWindowStart ctx => Sys2Proof.Machine.execGswitchWindowStart ctx s
  | .gswitchSeal ctx => Sys2Proof.Machine.execGswitchSeal ctx s
  | .gswitchWindfallSeal ctx => Sys2Proof.Machine.execGswitchWindfallSeal ctx s
  | .gswitchReinject ctx => Sys2Proof.Machine.execGswitchReinject ctx s
  | .gswitchResume ctx => Sys2Proof.Machine.execGswitchResume ctx s
  | .nopPacket q => Sys2Proof.Machine.execNopPacket q s
  | .kernelPacket q => Sys2Proof.Machine.execKernelPacket q s
  | .graphPacket q => Sys2Proof.Machine.execGraphPacket q s
  | .waitallPacket q => Sys2Proof.Machine.execWaitallPacket q s
  | .waitanyPacket q => Sys2Proof.Machine.execWaitanyPacket q s
  | .waitPoll q => Sys2Proof.Machine.execWaitPoll q s
  | .signalPacket q => Sys2Proof.Machine.execSignalPacket q s
  | .feedPacket q => Sys2Proof.Machine.execFeedPacket q s
  | .copyPacket q => Sys2Proof.Machine.execCopyPacket q s
  | .fencePacket q => Sys2Proof.Machine.execFencePacket q s
  | .packetComplete q idx => Sys2Proof.Machine.execPacketComplete q idx s
  | .doorbellWrite q => Sys2Proof.Machine.execDoorbellWrite q s
  | .wakeIntervalEnd ctx => Sys2Proof.Machine.execWakeIntervalEnd ctx s
  | .waitQuantum q => Sys2Proof.Machine.execWaitQuantum q s
  | .mapTick => Sys2Proof.Machine.execMapTick s
  | .watchListEval => Sys2Proof.Machine.execWatchListEval s
  | .queueDrained q => Sys2Proof.Machine.execQueueDrained q s
  | .graphNodeComplete run node => Sys2Proof.Machine.execGraphNodeComplete run node s
  | .graphRunEnd run => Sys2Proof.Machine.execGraphRunEnd run s
  | .bucketTick => Sys2Proof.Machine.execBucketTick s
  | .sliceEnd ctx => Sys2Proof.Machine.execSliceEnd ctx s
  | .eccScrub core => Sys2Proof.Machine.execEccScrub core s
  | .heartwoodCheckpoint => Sys2Proof.Machine.execHeartwoodCheckpoint s
  | .heartwoodMismatch => Sys2Proof.Machine.execHeartwoodMismatch s
  | .powerManagerTick p => Sys2Proof.Machine.execPowerManagerTick p s
  | .qcreate fn => Sys2Proof.Machine.execQcreate fn s
  | .qreset fn => Sys2Proof.Machine.execQreset fn s
  | .qdestroy fn => Sys2Proof.Machine.execQdestroy fn s
  | .qpin fn => Sys2Proof.Machine.execQpin fn s
  | .pasiddrain fn => Sys2Proof.Machine.execPasiddrain fn s
  | .pasidRelease pasid => Sys2Proof.Machine.execPasidRelease pasid s
  | .gangjoin fn => Sys2Proof.Machine.execGangjoin fn s
  | .pathset fn => Sys2Proof.Machine.execPathset fn s
  | .partset fn => Sys2Proof.Machine.execPartset fn s
  | .resetCore fn => Sys2Proof.Machine.execResetCore fn s
  | .resetDie fn => Sys2Proof.Machine.execResetDie fn s
  | .resetDevice fn => Sys2Proof.Machine.execResetDevice fn s
  | .timeset fn => Sys2Proof.Machine.execTimeset fn s
  | .coreControlError core => Sys2Proof.Machine.execCoreControlError core s
  | .dieControlError die => Sys2Proof.Machine.execDieControlError die s
  | .dieOvertemp die => Sys2Proof.Machine.execDieOvertemp die s
  | .firmwareWatchdog => Sys2Proof.Machine.execFirmwareWatchdog s
  | .powerGood b => Sys2Proof.Machine.execPowerGood b s
  | .keybindRequest r => Sys2Proof.Machine.execKeybindRequest r s
  | .getCertificate => Sys2Proof.Machine.execGetCertificate s
  | .challenge => Sys2Proof.Machine.execChallenge s
  | .getMeasurements => Sys2Proof.Machine.execGetMeasurements s
  | .keyExchange => Sys2Proof.Machine.execKeyExchange s
  | .finish => Sys2Proof.Machine.execFinish s
  | .meas7Extend digest => Sys2Proof.Machine.execMeas7Extend digest s
  | .firmwareUpdate svn signed digest => Sys2Proof.Machine.execFirmwareUpdate svn signed digest s
  | .hostMemWrite addr data => Sys2Proof.Machine.execHostMemWrite addr data s
  | .hostMemRead addr n => Sys2Proof.Machine.execHostMemRead addr n s
  | .hostSnoopInvalidate addr data => Sys2Proof.Machine.execHostSnoopInvalidate addr data s
  | .hostStoreAck gid idx => Sys2Proof.Machine.execHostStoreAck gid idx s
  | .flitReplay port => Sys2Proof.Machine.execFlitReplay port s
  | .linkRetrainComplete port delay => Sys2Proof.Machine.execLinkRetrainComplete port delay s
  | .discardReportArrival job => Sys2Proof.Machine.execDiscardReportArrival job s
  | .atsTranslationResponse pasid => Sys2Proof.Machine.execAtsTranslationResponse pasid s

end Sys2Proof.Machine
end

