-- ==== Sys2Proof/Machine/Step.lean ====
section
/-! DEFINITION. One step of the device: the turn taken next, or the unit that issues, and the instruction
it stands at; and a state in which a given instruction is the next. -/

namespace Sys2Proof.Machine

/-- A start-up in which every check and self-test passes (assumption 8). -/
def BootFacts.good : BootFacts :=
  { manifestOk := true, configOk := true, slotAOk := true, slotASvn := 0, slotBOk := true, slotBSvn := 0, badClusters := [],
    memFail := 0, cxlOk := true, badPorts := [], controlOk := true, linkDelays := [] }

/-- What happens next without a turn: the unit that issued last goes on; with none, power comes up or
time passes. -/
def goOn (s : State) : State × Option Instr :=
  match s.cur with
  | some u => if unitStands s u then unitNext s u else (pass s 1 1, none)
  | none => if s.boot.phase == .off then (s, some (.powerGood BootFacts.good)) else (pass s 1 1, none)

/-- The instruction a mover stands at. An instruction word is no event of its own. -/
def moverNext (s : State) : Mover → State × Option Instr
  | .quad c q => quadNext s c q
  | .seq c => progNext { s with cur := some (.seq c) } c true
  | .eng c => progNext { s with cur := some (.eng c) } c false
  | .event i => (s, if i.isSlot || i == .clauseIssue then none else some i)

/-- The next instruction or event, and the state in which it happens. -/
def nextInstr (s : State) : State × Option Instr :=
  match s.agenda with
  | [] => goOn s
  | t :: ts => moverNext (dropTlbs (pass { s with agenda := ts } t.dt t.cyc) t.drops) t.who

/-- One step. -/
def step (s : State) : Host.Outcome State Fault Refusal :=
  match nextInstr s with
  | (s, some i) => exec i s
  | (s, none) => .next s

/-! ## A state whose next step fetches a given word -/

/-- Table entries and their addresses: stage 1 maps the first gigabyte onto itself, stage 2 maps the
intermediate page 0 onto frame 0. -/
def fetchTables : List (Nat × Nat) :=
  [(0x10000, 1), (0x0, 3 + 7 * 8),
   (0x20000, 1 + 0x30000), (0x30000, 1 + 0x20400), (0x20400, 1 + 0x20800), (0x20800, 1 + 0x20C00),
   (0x20C00, 3 + 7 * 8 + 16 * 2 ^ 52)]

/-- The clause header: one slot, no waits, landing. -/
def fetchHdr (cls : Nat) : Nat := 0xF008000000000000 + cls * 2 ^ 56 + (if cls = 0 ∨ cls = 3 then 0xFF000000 else 0)

def fetchLaunch : LaunchHdr :=
  { (default : LaunchHdr) with codeBase := 0x2000, codeSize := 0x1000, width := 16, vregs8 := 8, groups := 1, planes := 1, scratch := 16,
                               widths := [64] }

def fetchClause (cls : Nat) : Clause :=
  { (default : Clause) with hdr := BitVec.ofNat 64 (fetchHdr cls), subs := [0xFFFF, 0, 0, 0], first := true, sub := if cls = 3 then 1 else 0xFFFF,
                            lpass := cls == 3, remLanes := if cls = 3 then 0xFFFE else 0, issue := 0 }

/-- The class of the clause that admits a major. -/
def fetchClass (major : Nat) : Nat :=
  if 0xB0 ≤ major ∧ major ≤ 0xB8 then 1 else if 0xD4 ≤ major ∧ major ≤ 0xD9 then 3 else 0

/-- The authority of the context that may issue a major (R14). -/
def fetchAuth (major : Nat) : Nat :=
  if major = 0xD6 then 3 else if major = 0xD4 ∨ major = 0xD5 ∨ major = 0xD7 ∨ major = 0xD9 then 1 else 2

def fetchCtx (major : Nat) : Ctx :=
  { (default : Ctx) with num := 16, auth := fetchAuth major, part := 1, claimed := fetchAuth major == 2, run := 2, s1root := 0x10000, s2root := 0x20000,
                         bkt := [default, default, default] }

def fetchGroup (s : State) (cls : Nat) : Group :=
  { (default : Group) with gid := s.nextId, ctx := 16, block := s.nextId + 1, hdr := fetchLaunch, resident := true, issues := 1, births := 1,
                           spillBase := 0x11000, spillLim := 0xF000, bands := List.replicate 8 none,
                           splits := [some { (default : Split) with mask := 0xFFFF, age := 0, st := .mid, clause := some (fetchClause cls) },
                                      none, none, none] }

def fetchBlock (s : State) : Block :=
  { (default : Block) with id := s.nextId + 1, ctx := 16, hdr := fetchLaunch, placed := true, groups := [s.nextId] }

def fetchProgram (s : State) : Prog :=
  { (default : Prog) with id := s.nextId, isSeq := true, cluster := 0, ctx := 16, block := s.nextId + 1, codeBase := 0x2000, codeSize := 0x1000,
                          live := true, ending := .done, clause := some { fetchClause 1 with subs := [1], sub := 1 } }

/-- `s` with an instruction word where the next step fetches one: a context whose tables map one frame, a
group (or a sequencer's program) inside a clause whose one slot is that word. -/
def State.withFetchWord (s : State) (nbits w : Nat) : State :=
  let word := w % 2 ^ min nbits 64
  let major := word / 2 ^ 56
  let cls := fetchClass major
  let code := bytesOfNat 8 (fetchHdr cls) ++ bytesOfNat 8 word
  let mem := memWrite s.mem (fetchTables.flatMap (fun e => bytesAt e.1 (bytesOfNat 8 e.2)) ++ bytesAt 0x2000 code)
  let s1 : State :=
    { s with agenda := [], mem := mem, nextId := s.nextId + 2,
             ctxs := s.ctxs.filter (fun c => c.num != 16) ++ [fetchCtx major],
             boot := { s.boot with phase := .running },
             vis := { s.vis with tlb := s.vis.tlb.filter (fun t => t.ctx != 16), frameOwner := s.vis.frameOwner.put 0 16 } }
  if cls = 1 then
    { s1 with cur := some (.seq 0),
              mx := { s1.mx with progs := s1.mx.progs.filter (fun p => !(p.cluster == 0 && p.isSeq)) ++ [fetchProgram s],
                                 stores := s1.mx.stores.filter (fun c => !(c.cluster == 0 && c.isSeq)) ++
                                   [⟨0, true, 16, 0, [], bytesAt 0 code⟩] } }
  else
    { s1 with cur := some (.split s.nextId 0), groups := fetchGroup s cls :: s.groups, blocks := fetchBlock s :: s.blocks }

end Sys2Proof.Machine
end

