-- ==== Sys2Proof/Safety.lean ====
section
/-! DEFINITION. The terms claims use: the invariant that every step keeps, a step that goes on, a unit at
the slot of an instruction, and what such a slot leaves behind. -/

namespace Sys2Proof

open Machine

/-- Physical memory is in its canonical form (R179; assumption 5). -/
def MemInv (s : State) : Prop := Memory.wf s.mem

/-- A step that goes on. -/
def GoesOn (s : State) : Prop := ∃ t, step s = .next t

/-- The unit that issues stands at a slot that holds `i`; `k` is what the slot sees. The checks of R12 and
R51 pass, and no result is outstanding in a register or latch that an operand names. -/
structure AtSlot (s : State) (i : Instr) (k : SlotCtx) : Prop where
  here : slotCtx s i = some k
  passes : slotChecks k (s.getCtx k.ctx).auth = none
  settled : mustWait k = false

/-- Whether a program's unit is a sequencer. -/
def isSeqUnit : UnitRef → Bool
  | .seq _ => true
  | _ => false

/-- The state once this issue of the slot is counted (R295). -/
def entered (s : State) (k : SlotCtx) : State :=
  match k.u with
  | .split _ _ => (markCounted s k.gid k.entry k.ctx k.c).1
  | .seq _ | .eng _ =>
    if k.c.counted then s
    else (s.count k.ctx 0x0001 1).updProg k.cluster (isSeqUnit k.u) (fun p => { p with clause := p.clause.map (fun c => { c with counted := true }) })

/-- What the slot sees from then on. -/
def enteredCtx (s : State) (k : SlotCtx) : SlotCtx :=
  match k.u with
  | .split _ _ =>
    let m := markCounted s k.gid k.entry k.ctx k.c
    let g := m.1.getGroup k.gid
    { k with c := m.2, g := g, sp := (g.split? k.entry).getD k.sp }
  | .seq _ | .eng _ => k

/-- The slot has written its results `r`: lane by lane its words (R33 to R35, R45). -/
def written (s : State) (k : SlotCtx) (r : List (Nat × List Word)) : State :=
  match k.u with
  | .split _ _ =>
    s.updGroup k.gid (fun g =>
      let g := putResults g k.i (lowestLane k.ex) r
      match g.split? k.entry with
      | some sp => g.setSplit k.entry (some { sp with st := .mid, clause := sp.clause.map (fun c => putLatches c c.slot r) })
      | none => g)
  | .seq _ | .eng _ =>
    s.updProg k.cluster (isSeqUnit k.u) (fun p => { (putProg p k.i r) with clause := p.clause.map (fun c => putLatches c c.slot r) })

/-- The unit has moved past its slot: to the next slot, the next plane or lane pass, or the clause's end. -/
def moved (s : State) (k : SlotCtx) : State :=
  match k.u with
  | .split _ _ => advance s k.gid k.entry (encode k.i)
  | .seq _ | .eng _ => progAdvance s k.cluster (isSeqUnit k.u)

/-- The slot has written `r` and moved on. -/
def ended (s : State) (k : SlotCtx) (r : List (Nat × List Word)) : State := moved (written s k r) k

/-- The slot has recorded its transfer, with `v` lane by lane, and moved on (R88). -/
def transferred (s : State) (k : SlotCtx) (v : SMap Word) : State :=
  match k.u with
  | .split _ _ => moved (recordXfer s k v) k
  | .seq _ | .eng _ => moved (s.updProg k.cluster (isSeqUnit k.u) (fun p => { p with clause := p.clause.map (fun c => { c with xfer := some k.i, xT := k.ex }) })) k

/-- The unit is parked at its slot. -/
def parkedAt (s : State) (k : SlotCtx) (kind : ParkKind) : State :=
  match k.u with
  | .split _ _ =>
    settleAll (setState { s with nextId := s.nextId + 1 } k.gid k.entry (.parked ⟨kind, k.ex, k.i, s.nextId, none, []⟩)) k.gid
  | .seq _ | .eng _ =>
    ({ s with nextId := s.nextId + 1 }).updProg k.cluster (isSeqUnit k.u) (fun p => { p with park := some ⟨kind, k.ex, k.i, s.nextId, none, []⟩ })

def isSplit : UnitRef → Bool
  | .split _ _ => true
  | _ => false

/-- A slot of a split traps: the lanes of the trap stop, and `commit` makes the effects of the others. -/
def trapAt (s : State) (k : SlotCtx) (t : Trap) (commit : State → State) : State :=
  settleAll (takeTrap s k.gid k.entry false k.c (encode k.i) t false commit (k.mask &&& ~~~t.mask)) k.gid

/-- The same words on every executing lane. -/
def onLanes (k : SlotCtx) (f : Nat → List Word) : List (Nat × List Word) := k.lanes.map (fun l => (l, f l))

end Sys2Proof
end

