-- ==== Sys2Proof/Certificates/Slice0/Obligations.lean ====
section
/-! DEFINITION. The statements about the model, each a proposition: what an instruction or an event does,
what taking an exception does, what reset leaves, and what every step keeps. -/

open Sys2Proof Sys2Proof.Machine

/-! ## Integer, logic and lane instructions (R127 to R136, R169) -/

/-- The signed range of a word. -/
def Sys2Proof.clampI (x : Int) : Int := max (-2147483648) (min x 2147483647)

/-- The form of an instruction of R127. -/
def Sys2Proof.intForm : Instr → Option VForm
  | .iadd _ f | .isub _ f | .imul f | .imulh _ f | .imad _ f | .imin _ f | .imax _ f | .iabs f | .and f | .or f | .xor f | .andn f
  | .shl f | .shr f | .sar f | .rol f | .popc f | .clz f | .brev f | .sel f | .mov f => some f
  | _ => none

/-- The table of R127: `r` is the result for operands a, b and c. -/
def Sys2Proof.IntRule : Instr → Word → Word → Word → Word → Prop
  | .iadd .wrap _, a, b, _, r => r.toNat = (a.toNat + b.toNat) % 2 ^ 32
  | .iadd .ssat _, a, b, _, r => r.toInt = clampI (a.toInt + b.toInt)
  | .iadd .usat _, a, b, _, r => r.toNat = min (a.toNat + b.toNat) (2 ^ 32 - 1)
  | .isub .wrap _, a, b, _, r => (r.toNat : Int) = ((a.toNat : Int) - b.toNat) % 2 ^ 32
  | .isub .ssat _, a, b, _, r => r.toInt = clampI (a.toInt - b.toInt)
  | .isub .usat _, a, b, _, r => (r.toNat : Int) = max ((a.toNat : Int) - b.toNat) 0
  | .imul _, a, b, _, r => r.toNat = a.toNat * b.toNat % 2 ^ 32
  | .imulh .s _, a, b, _, r => r.toInt = a.toInt * b.toInt / 2 ^ 32
  | .imulh .z _, a, b, _, r => r.toNat = a.toNat * b.toNat / 2 ^ 32
  | .imad .wrap _, a, b, c, r => r.toNat = (a.toNat * b.toNat + c.toNat) % 2 ^ 32
  | .imad .ssat _, a, b, c, r => r.toInt = clampI (a.toInt * b.toInt + c.toInt)
  | .imin .s _, a, b, _, r => r.toInt = min a.toInt b.toInt
  | .imin .z _, a, b, _, r => r.toNat = min a.toNat b.toNat
  | .imax .s _, a, b, _, r => r.toInt = max a.toInt b.toInt
  | .imax .z _, a, b, _, r => r.toNat = max a.toNat b.toNat
  | .iabs _, a, _, _, r => r.toNat = a.toInt.natAbs
  | .and _, a, b, _, r => ∀ j, r.getLsbD j = (a.getLsbD j && b.getLsbD j)
  | .or _, a, b, _, r => ∀ j, r.getLsbD j = (a.getLsbD j || b.getLsbD j)
  | .xor _, a, b, _, r => ∀ j, r.getLsbD j = (a.getLsbD j != b.getLsbD j)
  | .andn _, a, b, _, r => ∀ j, r.getLsbD j = (a.getLsbD j && !b.getLsbD j)
  | .shl _, a, b, _, r => r.toNat = if b.toNat < 32 then a.toNat * 2 ^ b.toNat % 2 ^ 32 else 0
  | .shr _, a, b, _, r => r.toNat = if b.toNat < 32 then a.toNat / 2 ^ b.toNat else 0
  | .sar _, a, b, _, r => r.toInt = a.toInt / 2 ^ (min b.toNat 31)
  | .rol _, a, b, _, r => ∀ j < 32, r.getLsbD ((j + b.toNat) % 32) = a.getLsbD j
  | .popc _, a, _, _, r => r.toNat = ((List.range 32).filter (fun j => a.getLsbD j)).length
  | .clz _, a, _, _, r => r.toNat ≤ 32 ∧ (∀ j < r.toNat, a.getLsbD (31 - j) = false) ∧ (r.toNat < 32 → a.getLsbD (31 - r.toNat) = true)
  | .brev _, a, _, _, r => ∀ j < 32, r.getLsbD j = a.getLsbD (31 - j)
  | .sel _, a, b, c, r => r = if c ≠ 0 then a else b
  | .mov _, a, _, _, r => r = a
  | _, _, _, _, _ => False

/-- R127: each executing lane computes its result from its own operands, the result goes to the destination
and the latch, and the slot is past; whatever the values are. -/
def Obligations.IntegerResults : Prop :=
  ∀ (s : State) (k : SlotCtx) (i : Instr) (f : VForm), intForm i = some f → AtSlot s i k →
    ∃ v : Nat → Word, (∀ l, IntRule i (k.rd s f.a l) (k.rd s f.b l) (k.rd s f.c l) (v l)) ∧
      exec i s = .next (ended (entered s k) (enteredCtx s k) (onLanes k (fun l => [v l])))

/-- R128: position and length come from one operand; a field at position 32 or above is empty, a length above
32 counts as 32. -/
def Sys2Proof.FieldRule : Instr → Word → Word → Word → Word → Prop
  | .bfe .z _, a, b, _, r => r.toNat = a.toNat / 2 ^ (b.toNat % 256) % 2 ^ min (b.toNat / 256 % 256) 32
  | .bfe .s _, a, b, _, r =>
    let pos := b.toNat % 256
    let len := min (b.toNat / 256 % 256) 32
    let f : Nat := if 32 ≤ pos then (if a.toInt < 0 then 0xFFFFFFFF else 0) else a.toNat / 2 ^ pos
    (len = 0 → r = 0) ∧ (0 < len → r.toInt = Int.bmod f (2 ^ len))
  | .bfi _, a, b, c, r =>
    let pos := b.toNat % 256
    let len := min (b.toNat / 256 % 256) 32
    ∀ j < 32, r.getLsbD j = if pos ≤ j ∧ j < pos + len then a.getLsbD (j - pos) else c.getLsbD j
  | _, _, _, _, _ => False

def Sys2Proof.fieldForm : Instr → Option VForm
  | .bfe _ f | .bfi f => some f
  | _ => none

/-- R128: BFE takes a field out, BFI puts one in. -/
def Obligations.FieldResults : Prop :=
  ∀ (s : State) (k : SlotCtx) (i : Instr) (f : VForm), fieldForm i = some f → AtSlot s i k →
    ∃ v : Nat → Word, (∀ l, FieldRule i (k.rd s f.a l) (k.rd s f.b l) (k.rd s f.c l) (v l)) ∧
      exec i s = .next (ended (entered s k) (enteredCtx s k) (onLanes k (fun l => [v l])))

/-- R129: the conditions of ICMP. -/
def Sys2Proof.ICond.Holds : ICond → Word → Word → Prop
  | .eq, a, b => a = b
  | .ne, a, b => a ≠ b
  | .lt, a, b => a.toInt < b.toInt
  | .le, a, b => a.toInt ≤ b.toInt
  | .gt, a, b => b.toInt < a.toInt
  | .ge, a, b => b.toInt ≤ a.toInt
  | .ltz, a, b => a.toNat < b.toNat
  | .lez, a, b => a.toNat ≤ b.toNat
  | .gtz, a, b => b.toNat < a.toNat
  | .gez, a, b => b.toNat ≤ a.toNat

/-- R129: ICMP gives 1 where its condition holds, else 0. -/
def Sys2Proof.CompareResultsRule : Prop :=
  ∀ (s : State) (k : SlotCtx) (m : ICond) (f : VForm), AtSlot s (.icmp m f) k →
    ∃ v : Nat → Word, (∀ l, (m.Holds (k.rd s f.a l) (k.rd s f.b l) → v l = 1) ∧ (¬ m.Holds (k.rd s f.a l) (k.rd s f.b l) → v l = 0)) ∧
      exec (.icmp m f) s = .next (ended (entered s k) (enteredCtx s k) (onLanes k (fun l => [v l])))

/-- R130, R131: MOVI gives its immediate; PLOP gives the bit of its table that three predicates select. -/
def Sys2Proof.ImmediateAndPredicateLogicRule : Prop :=
  (∀ (s : State) (k : SlotCtx) (f : IForm), AtSlot s (.movi f) k →
    exec (.movi f) s = .next (ended (entered s k) (enteredCtx s k) (onLanes k (fun _ => [f.imm])))) ∧
  (∀ (s : State) (k : SlotCtx) (f : VForm), AtSlot s (.plop f) k →
    let p (n l : Nat) : Nat := if (k.predMask ⟨false, BitVec.ofNat 3 (f.a.bits.toNat / 8 ^ n)⟩).getLsbD l then 1 else 0
    ∃ v : Nat → Word, (∀ l, v l = if f.b.bits.getLsbD (4 * p 0 l + 2 * p 1 l + p 2 l) then 1 else 0) ∧
      exec (.plop f) s = .next (ended (entered s k) (enteredCtx s k) (onLanes k (fun l => [v l]))))

/-- Both of the rules above: CompareResultsRule, ImmediateAndPredicateLogicRule. -/
def Obligations.CompareAndImmediate : Prop := Sys2Proof.CompareResultsRule ∧ Sys2Proof.ImmediateAndPredicateLogicRule

/-- Byte j of a word. -/
def Sys2Proof.byteAt (a : Word) (j : Nat) : BitVec 8 := BitVec.ofNat 8 (a.toNat / 256 ^ j)

/-- R169: DOT4 adds four byte products and c, wrapped or clamped. -/
def Obligations.Dot4Results : Prop :=
  ∀ (s : State) (k : SlotCtx) (m : Sgn) (f : VForm), AtSlot s (.dot4 m f) k →
    ∃ v : Nat → Word,
      (∀ l,
        let a := k.rd s f.a l
        let b := k.rd s f.b l
        let c := k.rd s f.c l
        match m with
        | .s =>
          let t := (byteAt a 0).toInt * (byteAt b 0).toInt + (byteAt a 1).toInt * (byteAt b 1).toInt + (byteAt a 2).toInt * (byteAt b 2).toInt +
            (byteAt a 3).toInt * (byteAt b 3).toInt + c.toInt
          if f.sat then (v l).toInt = clampI t else v l = BitVec.ofInt 32 t
        | .z =>
          let t := (byteAt a 0).toNat * (byteAt b 0).toNat + (byteAt a 1).toNat * (byteAt b 1).toNat + (byteAt a 2).toNat * (byteAt b 2).toNat +
            (byteAt a 3).toNat * (byteAt b 3).toNat + c.toNat
          (v l).toNat = if f.sat then min t (2 ^ 32 - 1) else t % 2 ^ 32) ∧
      exec (.dot4 m f) s = .next (ended (entered s k) (enteredCtx s k) (onLanes k (fun l => [v l])))

/-- The segment size of SHFL on its lowest executing lane (R134). -/
def Sys2Proof.shflW (s : State) (k : SlotCtx) (f : VForm) (l0 : Nat) : Nat :=
  if k.rd s f.c l0 = 0 then k.g.hdr.width else (k.rd s f.c l0).toNat

/-- R134: the source lane of SHFL. -/
def Sys2Proof.ShflFrom (m : ShflOp) (W l q : Nat) : Option Nat :=
  match m with
  | .idx => some (l - l % W + q % W)
  | .up => if l - l % W + q ≤ l then some (l - q) else none
  | .down => if l + q < l - l % W + W then some (l + q) else none
  | .xor => some (l - l % W + Nat.xor (l % W) (q % W))

/-- R134: with a segment size that is the same on every executing lane, a power of two and at most the width,
each lane takes the SRCA of its source lane if that lane executes, else its own; with no executing lane
nothing is written. -/
def Sys2Proof.ShuffleResultsRule : Prop :=
  ∀ (s : State) (k : SlotCtx) (m : ShflOp) (f : VForm), AtSlot s (.shfl m f) k →
    (∀ l0 ∈ k.lanes, ∀ l ∈ k.lanes, k.rd s f.c l = k.rd s f.c l0) →
    (∀ l0 ∈ k.lanes, (∃ n, shflW s k f l0 = 2 ^ n) ∧ shflW s k f l0 ≤ k.g.hdr.width) →
    ∃ v : Nat → Word,
      (∀ l0 ∈ k.lanes, ∀ l, v l = match ShflFrom m (shflW s k f l0) l (k.rd s f.b l).toNat with
        | some x => if k.ex.getLsbD x then k.rd s f.a x else k.rd s f.a l
        | none => k.rd s f.a l) ∧
      exec (.shfl m f) s = .next (ended (entered s k) (enteredCtx s k) (onLanes k (fun l => [v l])))

/-- R135: VOTE over the executing lanes. -/
def Sys2Proof.VoteResultsRule : Prop :=
  ∀ (s : State) (k : SlotCtx) (m : VoteOp) (f : VForm), AtSlot s (.vote m f) k →
    ∃ ws : List Word,
      (match m with
        | .all => ws = [if ∀ l ∈ k.lanes, k.rd s f.a l ≠ 0 then 1 else 0]
        | .any => ws = [if ∃ l ∈ k.lanes, k.rd s f.a l ≠ 0 then 1 else 0]
        | .ballot => ws.length = max 1 (k.g.hdr.width / 32) ∧
            ∀ j < ws.length, ∀ n < 32, (ws.getD j 0).getLsbD n = decide (32 * j + n ∈ k.lanes ∧ k.rd s f.a (32 * j + n) ≠ 0)) ∧
      exec (.vote m f) s = .next (ended (entered s k) (enteredCtx s k) (onLanes k (fun _ => ws)))

/-- R136: REDUX combines the executing lanes; the order of combination does not matter. -/
def Sys2Proof.ReductionResultsRule : Prop :=
  ∀ (s : State) (k : SlotCtx) (m : ReduxOp) (f : VForm), AtSlot s (.redux m f) k →
    ∃ w : Word,
      (k.lanes ≠ [] →
        match m with
        | .add => w.toNat = (k.lanes.map (fun l => (k.rd s f.a l).toNat)).sum % 2 ^ 32
        | .min => (∃ l ∈ k.lanes, w = k.rd s f.a l) ∧ ∀ l ∈ k.lanes, w.toInt ≤ (k.rd s f.a l).toInt
        | .max => (∃ l ∈ k.lanes, w = k.rd s f.a l) ∧ ∀ l ∈ k.lanes, (k.rd s f.a l).toInt ≤ w.toInt
        | .and => ∀ j < 32, w.getLsbD j = decide (∀ l ∈ k.lanes, (k.rd s f.a l).getLsbD j = true)
        | .or => ∀ j < 32, w.getLsbD j = decide (∃ l ∈ k.lanes, (k.rd s f.a l).getLsbD j = true)) ∧
      exec (.redux m f) s = .next (ended (entered s k) (enteredCtx s k) (onLanes k (fun _ => [w])))

/-- All of the rules above: ShuffleResultsRule, VoteResultsRule, ReductionResultsRule. -/
def Obligations.LaneOperations : Prop := Sys2Proof.ShuffleResultsRule ∧ Sys2Proof.VoteResultsRule ∧ Sys2Proof.ReductionResultsRule

/-! ## Floating point (R142 to R167) -/

/-- 2^k for an integer k. -/
def Sys2Proof.twoTo (k : Int) : Rat := if 0 ≤ k then (2 ^ k.toNat : Nat) else 1 / (2 ^ (-k).toNat : Nat)

/-- A finite pattern of a format (R142). -/
def Sys2Proof.fIsFin (t : FFmt) (p : Nat) : Prop := p < 2 * t.sign ∧ p / 2 ^ t.f % 2 ^ t.eb ≠ 2 ^ t.eb - 1

/-- The number a finite pattern stands for (R142). -/
def Sys2Proof.fnum (t : FFmt) (p : Nat) : Rat :=
  let e := p / 2 ^ t.f % 2 ^ t.eb
  let m := p % 2 ^ t.f
  (if p / t.sign % 2 = 1 then -1 else 1) *
    (if e = 0 then (m : Rat) * twoTo (t.emin - t.f) else ((m + 2 ^ t.f : Nat) : Rat) * twoTo (t.emin - t.f + (e - 1 : Nat)))

/-- The number an exact, unrounded magnitude stands for. -/
def Sys2Proof.exValue (x : Ex) : Rat := (if x.neg then -1 else 1) * ((x.num : Rat) * twoTo x.exp)

/-- R144: under RNE no finite value of the format is nearer to x than the result, and of two that are equally
near it is the one with an even fraction; from (2 - 2^-(f+1)) * 2^emax up it is the infinity of x's sign. -/
def Sys2Proof.RoundToNearestEvenRule : Prop :=
  ∀ t ∈ [f32, f16, bf16], ∀ x : Ex, x.sticky = false →
    let r := (t.round x 0).bits
    let top : Rat := ((2 ^ (t.f + 2) - 1 : Nat) : Rat) * twoTo (-t.emin - t.f)
    if exValue x < top ∧ -top < exValue x then
      fIsFin t r ∧
        (∀ p, fIsFin t p → (fnum t r - exValue x) * (fnum t r - exValue x) ≤ (fnum t p - exValue x) * (fnum t p - exValue x)) ∧
        (∀ p, fIsFin t p → (fnum t r - exValue x) * (fnum t r - exValue x) = (fnum t p - exValue x) * (fnum t p - exValue x) →
          fnum t p ≠ fnum t r → r % 2 = 0)
    else r = (if x.neg then t.sign else 0) + t.inf

/-- R144: the directed modes give a neighbour on their own side: RZ the smaller magnitude, the others the
larger or the smaller value; nothing of the format lies between the result and x. -/
def Sys2Proof.DirectedRoundingRule : Prop :=
  ∀ t ∈ [f32, f16, bf16], ∀ x : Ex, x.sticky = false →
    let z := (t.round x 1).bits
    let u := (t.round x 2).bits
    let d := (t.round x 3).bits
    (fIsFin t z ∧ (0 ≤ exValue x → 0 ≤ fnum t z ∧ fnum t z ≤ exValue x) ∧ (exValue x ≤ 0 → exValue x ≤ fnum t z ∧ fnum t z ≤ 0)) ∧
    (∀ p, fIsFin t p → 0 ≤ exValue x → fnum t p ≤ exValue x → fnum t p ≤ fnum t z) ∧
    (∀ p, fIsFin t p → exValue x ≤ 0 → exValue x ≤ fnum t p → fnum t z ≤ fnum t p) ∧
    (u = t.inf ∧ (∀ p, fIsFin t p → fnum t p < exValue x) ∨
      fIsFin t u ∧ (exValue x ≤ fnum t u ∧ (∀ p, fIsFin t p → exValue x ≤ fnum t p → fnum t u ≤ fnum t p))) ∧
    (d = t.sign + t.inf ∧ (∀ p, fIsFin t p → exValue x < fnum t p) ∨
      fIsFin t d ∧ (fnum t d ≤ exValue x ∧ (∀ p, fIsFin t p → fnum t p ≤ exValue x → fnum t p ≤ fnum t d)))

/-- Both of the rules above: RoundToNearestEvenRule, DirectedRoundingRule. -/
def Obligations.Rounding : Prop := Sys2Proof.RoundToNearestEvenRule ∧ Sys2Proof.DirectedRoundingRule

/-- R153: of finite operands, FADD, FSUB, FMUL and FFMA round the exact sum, difference, product, or product
and sum once. -/
def Sys2Proof.FloatArithmeticRoundsOnceRule : Prop :=
  ∀ (x y z : Nat) (mode : BitVec 2), fIsFin f32 x → fIsFin f32 y → fIsFin f32 z →
    (∃ e : Ex, e.sticky = false ∧ exValue e = fnum f32 x + fnum f32 y ∧ arith .add f32 x y mode false = f32.round e mode) ∧
    (∃ e : Ex, e.sticky = false ∧ exValue e = fnum f32 x - fnum f32 y ∧ arith .sub f32 x y mode false = f32.round e mode) ∧
    (∃ e : Ex, e.sticky = false ∧ exValue e = fnum f32 x * fnum f32 y ∧ arith .mul f32 x y mode false = f32.round e mode) ∧
    (∃ e : Ex, e.sticky = false ∧ exValue e = fnum f32 x * fnum f32 y + fnum f32 z ∧ fmaOf f32 x y z mode false = f32.round e mode)

/-- A NaN pattern of f32, and a signalling one (R143). -/
def Sys2Proof.isNaN32 (p : Nat) : Bool := 0x7F800000 < p % 0x80000000
def Sys2Proof.isSNaN32 (p : Nat) : Bool := 0x7F800000 < p % 0x80000000 && p % 0x80000000 < 0x7FC00000
/-- INV alone, or no flag. -/
def Sys2Proof.invFlag (b : Bool) : Nat := if b then 1 else 0

/-- R143, R146, R153: a NaN operand gives the canonical NaN and raises INV only if one is signalling; FMIN and
FMAX give the other operand; infinity minus infinity and zero times infinity are NaN with INV. -/
def Sys2Proof.FloatInvalidOperationsRule : Prop :=
  ∀ (x y z : Nat) (mode : BitVec 2), x < 2 ^ 32 → y < 2 ^ 32 → z < 2 ^ 32 →
    (isNaN32 x ∨ isNaN32 y →
      ∀ op, arith op f32 x y mode false = ⟨0x7FC00000, invFlag (isSNaN32 x || isSNaN32 y)⟩ ∧
        fcmpOf .eq x y = ⟨0, invFlag (isSNaN32 x || isSNaN32 y)⟩ ∧ fcmpOf .ne x y = ⟨1, invFlag (isSNaN32 x || isSNaN32 y)⟩ ∧
        fcmpOf .nan x y = ⟨1, invFlag (isSNaN32 x || isSNaN32 y)⟩ ∧ fcmpOf .num x y = ⟨0, invFlag (isSNaN32 x || isSNaN32 y)⟩) ∧
    (isNaN32 x → isNaN32 y → ∀ b, (f32.minmax b x y).bits = 0x7FC00000) ∧
    (isNaN32 x → ¬ isNaN32 y → ∀ b, f32.minmax b x y = ⟨y, invFlag (isSNaN32 x)⟩) ∧
    (¬ isNaN32 x → isNaN32 y → ∀ b, f32.minmax b x y = ⟨x, invFlag (isSNaN32 y)⟩) ∧
    arith .sub f32 0x7F800000 0x7F800000 mode false = ⟨0x7FC00000, 1⟩ ∧
    arith .add f32 0x7F800000 0xFF800000 mode false = ⟨0x7FC00000, 1⟩ ∧
    arith .mul f32 0 0x7F800000 mode false = ⟨0x7FC00000, 1⟩ ∧
    (isNaN32 z → fmaOf f32 0x80000000 0x7F800000 z mode false = ⟨0x7FC00000, 1⟩)

/-- R154: FCMP compares numbers; the two zeros are equal. -/
def Sys2Proof.FloatCompareIsNumericRule : Prop :=
  ∀ x y : Nat, fIsFin f32 x → fIsFin f32 y →
    let a := fnum f32 x
    let b := fnum f32 y
    fcmpOf .eq x y = ⟨if a = b then 1 else 0, 0⟩ ∧ fcmpOf .ne x y = ⟨if a = b then 0 else 1, 0⟩ ∧ fcmpOf .lt x y = ⟨if a < b then 1 else 0, 0⟩ ∧
      fcmpOf .le x y = ⟨if a ≤ b then 1 else 0, 0⟩ ∧ fcmpOf .gt x y = ⟨if b < a then 1 else 0, 0⟩ ∧ fcmpOf .ge x y = ⟨if b ≤ a then 1 else 0, 0⟩ ∧
      fcmpOf .num x y = ⟨1, 0⟩ ∧ fcmpOf .nan x y = ⟨0, 0⟩

/-- All of the rules above: FloatArithmeticRoundsOnceRule, FloatInvalidOperationsRule, FloatCompareIsNumericRule. -/
def Obligations.FloatArithmetic : Prop := Sys2Proof.FloatArithmeticRoundsOnceRule ∧ Sys2Proof.FloatInvalidOperationsRule ∧ Sys2Proof.FloatCompareIsNumericRule

/-- The class of R156, by the pattern alone: the number of the bit. -/
def Sys2Proof.classBit (x : Nat) : Nat :=
  if x = 0xFF800000 then 0 else if 0x80800000 ≤ x ∧ x < 0xFF800000 then 1 else if 0x80000000 < x ∧ x < 0x80800000 then 2
  else if x = 0x80000000 then 3 else if x = 0 then 4 else if x < 0x00800000 then 5 else if x < 0x7F800000 then 6
  else if x = 0x7F800000 then 7 else if x % 0x80000000 < 0x7FC00000 then 8 else 9

/-- R156: FCLASS sets exactly the bit of its operand's class and raises no flag. -/
def Obligations.FclassResults : Prop :=
  ∀ (s : State) (k : SlotCtx) (f : VForm), AtSlot s (.fclass f) k →
    exec (.fclass f) s = .next (ended (entered s k) (enteredCtx s k) (onLanes k (fun l => [BitVec.ofNat 32 (2 ^ classBit (k.rdF32 s f.a l))])))

/-- The f32 pattern of 2^k. -/
def Sys2Proof.pow2Pattern (k : Int) : Nat := if -126 ≤ k then (k + 127).toNat * 2 ^ 23 else 2 ^ (k + 149).toNat

/-- R158: what the special functions return exactly, at every power-cap level. -/
def Obligations.SpecialFunctionExactValues : Prop :=
  ∀ l3 : Bool,
    (sfu 0 l3 0 = ⟨0x7F800000, 2⟩ ∧ sfu 0 l3 0x80000000 = ⟨0xFF800000, 2⟩ ∧ sfu 0 l3 0x7F800000 = ⟨0, 0⟩ ∧ sfu 0 l3 0xFF800000 = ⟨0x80000000, 0⟩) ∧
    (∀ k : Int, -126 ≤ k → k ≤ 126 → sfu 0 l3 (pow2Pattern k) = ⟨pow2Pattern (-k), 0⟩ ∧
      sfu 0 l3 (0x80000000 + pow2Pattern k) = ⟨0x80000000 + pow2Pattern (-k), 0⟩) ∧
    (sfu 1 l3 0 = ⟨0x7F800000, 2⟩ ∧ sfu 1 l3 0x80000000 = ⟨0xFF800000, 2⟩ ∧ sfu 1 l3 0x7F800000 = ⟨0, 0⟩) ∧
    (∀ x, 0x80000000 < x → x ≤ 0xFF800000 → sfu 1 l3 x = ⟨0x7FC00000, 1⟩ ∧ sfu 3 l3 x = ⟨0x7FC00000, 1⟩) ∧
    (∀ k : Int, -74 ≤ k → k ≤ 63 → sfu 1 l3 (pow2Pattern (2 * k)) = ⟨pow2Pattern (-k), 0⟩) ∧
    (sfu 2 l3 0xFF800000 = ⟨0, 0⟩ ∧ sfu 2 l3 0x7F800000 = ⟨0x7F800000, 0⟩) ∧
    (∀ k : Int, -149 ≤ k → k ≤ 127 → sfu 2 l3 (f32.ofInt k 0).bits = ⟨pow2Pattern k, 0⟩ ∧ sfu 3 l3 (pow2Pattern k) = ⟨(f32.ofInt k 0).bits, 0⟩) ∧
    (sfu 3 l3 0 = ⟨0xFF800000, 2⟩ ∧ sfu 3 l3 0x80000000 = ⟨0xFF800000, 2⟩ ∧ sfu 3 l3 0x7F800000 = ⟨0x7F800000, 0⟩) ∧
    (sfu 4 l3 0 = ⟨0, 0⟩ ∧ sfu 4 l3 0x80000000 = ⟨0x80000000, 0⟩ ∧ sfu 5 l3 0 = ⟨0x3F800000, 0⟩ ∧ sfu 5 l3 0x80000000 = ⟨0x3F800000, 0⟩) ∧
    (∀ op ∈ [4, 5], ∀ x ∈ [0x7F800000, 0xFF800000], sfu op l3 x = ⟨0x7FC00000, 1⟩) ∧
    (∀ op < 6, ∀ x < 2 ^ 32, isNaN32 x → (sfu op l3 x).bits = 0x7FC00000 ∧ ((sfu op l3 x).flags = 1 ↔ isSNaN32 x) ∧ (sfu op l3 x).flags ≤ 1)

/-- The result and flags of a floating instruction on a lane (R153 to R155, R157, R160, R162, R166, R167). -/
def Sys2Proof.floatResult : Instr → Option (SlotCtx → State → Nat → FRes)
  | .fadd f => some (fun k s l => arith .add f32 (fA f k s l) (fB f k s l) f.rnd f.sat)
  | .fsub f => some (fun k s l => arith .sub f32 (fA f k s l) (fB f k s l) f.rnd f.sat)
  | .fmul f => some (fun k s l => arith .mul f32 (fA f k s l) (fB f k s l) f.rnd f.sat)
  | .ffma f => some (fun k s l => fmaOf f32 (fA f k s l) (fB f k s l) (k.rdF32 s f.c l) f.rnd f.sat)
  | .fmin f => some (fun k s l => f32.minmax false (fA f k s l) (fB f k s l))
  | .fmax f => some (fun k s l => f32.minmax true (fA f k s l) (fB f k s l))
  | .fcmp m f => some (fun k s l => fcmpOf m (fA f k s l) (fB f k s l))
  | .frnd m f => some (fun k s l => frndOf (fA f k s l) (rndMode m))
  | .cvt m f => some (fun k s l => cvtOf m f k s l)
  | .pkadd m f => some (fun k s l =>
      let t := halfFmt m
      pack2 (arith .add t (modify t f.moda (k.rdHalf2 s t f.a l).1) (modify t f.modb (k.rdHalf2 s t f.b l).1) f.rnd f.sat)
        (arith .add t (modify t f.moda (k.rdHalf2 s t f.a l).2) (modify t f.modb (k.rdHalf2 s t f.b l).2) f.rnd f.sat))
  | .pkmul m f => some (fun k s l =>
      let t := halfFmt m
      pack2 (arith .mul t (modify t f.moda (k.rdHalf2 s t f.a l).1) (modify t f.modb (k.rdHalf2 s t f.b l).1) f.rnd f.sat)
        (arith .mul t (modify t f.moda (k.rdHalf2 s t f.a l).2) (modify t f.modb (k.rdHalf2 s t f.b l).2) f.rnd f.sat))
  | .pkfma m f => some (fun k s l =>
      let t := halfFmt m
      pack2 (fmaOf t (modify t f.moda (k.rdHalf2 s t f.a l).1) (modify t f.modb (k.rdHalf2 s t f.b l).1) (k.rdHalf2 s t f.c l).1 f.rnd f.sat)
        (fmaOf t (modify t f.moda (k.rdHalf2 s t f.a l).2) (modify t f.modb (k.rdHalf2 s t f.b l).2) (k.rdHalf2 s t f.c l).2 f.rnd f.sat))
  | .lmul f => some (fun k s l => lmulOf (k.rd s f.a l) (k.rd s f.b l))
  | .lsum f => some (fun k s l => lsumOf (fmtAScale k.c.fmt + fmtBScale k.c.fmt) (k.rd s f.a l) (k.rd s f.b l) (k.rdF32 s f.c l))
  | .frcp f => some (fun k s l => sfu 0 (s.ctl.powerLevel == 3) (fA f k s l))
  | .frsq f => some (fun k s l => sfu 1 (s.ctl.powerLevel == 3) (fA f k s l))
  | .fexp2 f => some (fun k s l => sfu 2 (s.ctl.powerLevel == 3) (fA f k s l))
  | .flog2 f => some (fun k s l => sfu 3 (s.ctl.powerLevel == 3) (fA f k s l))
  | .fsin f => some (fun k s l => sfu 4 (s.ctl.powerLevel == 3) (fA f k s l))
  | .fcos f => some (fun k s l => sfu 5 (s.ctl.powerLevel == 3) (fA f k s l))
  | _ => none

/-- The element index of CVT.8 and CVT.9 is at most 4 on every executing lane (R164). -/
def Sys2Proof.indexFits (i : Instr) (k : SlotCtx) (s : State) : Prop :=
  match i with
  | .cvt .f32lns f | .cvt .lnsf32 f => ∀ l ∈ k.lanes, (k.rd s f.b l).toNat ≤ 4
  | _ => True

/-- A special function runs under level 3 on some lane (R159). -/
def Sys2Proof.setsPcap (i : Instr) (k : SlotCtx) (s : State) : Bool :=
  match i with
  | .frcp _ | .frsq _ | .fexp2 _ | .flog2 _ | .fsin _ | .fcos _ => s.ctl.powerLevel == 3 && k.ex != 0
  | _ => false

/-- The flags of every executing lane, and PCAP3. -/
def Sys2Proof.raised (i : Instr) (k : SlotCtx) (s : State) (f : Nat → FRes) (t : State) : State :=
  orFlags (if setsPcap i k s then orFlags t k.gid 256 else t) k.gid (allFlags (k.lanes.map (fun l => (l, f l))))

/-- R146, R153 to R167: a floating instruction gives each executing lane its result and ORs the flags of all of
them into CX.FPSTAT; with XTRAP it does so when no lane raises INV or DZ.
Where the rules leave a point open it states the model's reading (assumption 16). -/
def Obligations.FloatingCompletes : Prop :=
  ∀ (s : State) (k : SlotCtx) (i : Instr) (f : SlotCtx → State → Nat → FRes), floatResult i = some f → AtSlot s i k → indexFits i k s →
    (fmtXTrap k.c.fmt = true → ∀ l ∈ k.lanes, (f k s l).flags % 4 = 0) →
    exec i s = .next (ended (raised i k s (f k s) (entered s k)) (enteredCtx s k) (onLanes k (fun l => [BitVec.ofNat 32 (f k s l).bits])))

/-- R146: with XTRAP a lane that raises INV or DZ traps FP_TRAP with its flags as its information; those lanes
write nothing, the other lanes complete and every flag is set. -/
def Obligations.FloatTrap : Prop :=
  ∀ (s : State) (k : SlotCtx) (i : Instr) (f : SlotCtx → State → Nat → FRes), floatResult i = some f → AtSlot s i k → indexFits i k s →
    fmtXTrap k.c.fmt = true → (∃ l ∈ k.lanes, (f k s l).flags % 4 ≠ 0) → isSplit k.u = true →
    let bad := k.lanes.filter (fun l => (f k s l).flags % 4 != 0)
    let good := k.lanes.filter (fun l => (f k s l).flags % 4 == 0)
    ∃ commit : State → State,
      (∀ t, t.now = s.now → t.ctl.powerLevel = s.ctl.powerLevel →
        commit t = (raised i k s (f k s) t).updGroup k.gid (fun g =>
          putResults g i (lowestLane k.ex) (good.map (fun l => (l, [BitVec.ofNat 32 (f k s l).bits]))))) ∧
      exec i s = .next (trapAt (entered s k) (enteredCtx s k) ⟨0, bad.map (fun l => (l, ⟨.fpTrap, 0, (f k s l).flags % 4⟩))⟩ commit)

/-- R149 to R151: FMTSET gives the FMT in force and leaves its immediate pending; FMTGET reads FMT, SFMT or
CX.FPSTAT, never the pending value. -/
def Obligations.FormatRegister : Prop :=
  (∀ (s : State) (k : SlotCtx) (f : IForm), AtSlot s (.fmtset f) k → isSplit k.u = true →
    let t := (entered s k).updGroup k.gid (fun g => match g.split? k.entry with
      | some sp => g.setSplit k.entry (some { sp with clause := sp.clause.map (fun c => { c with pend := some f.imm }) })
      | none => g)
    exec (.fmtset f) s = .next (ended t (enteredCtx s k) (onLanes k (fun _ => [k.c.fmt])))) ∧
  (∀ (s : State) (k : SlotCtx) (f : VForm), AtSlot s (.fmtget f) k → isSplit k.u = true →
    exec (.fmtget f) s = .next (ended (entered s k) (enteredCtx s k) (onLanes k (fun l =>
      [if (k.rd s f.a l).toNat = 0 then k.c.fmt else if (k.rd s f.a l).toNat = 1 then k.sp.sfmt
        else if (k.rd s f.a l).toNat = 2 then k.g.fpstat else 0])))) ∧
  (∀ (sp : Split) (c : Clause) (off : Int), (sp.atEnd c off).fmt = c.pend.getD sp.fmt)

/-- Log field and sign of a code (R163). -/
def Sys2Proof.lField (c : Nat) : Nat := c % 32
def Sys2Proof.lSign (c : Nat) : Nat := c / 32 % 2

/-- R166: LMUL adds log fields element by element, saturating with OVF and flushing with UNF. -/
def Obligations.LmulCodes : Prop :=
  ∀ (a b : Word),
    (∀ i < 5,
      let x := a.toNat / 2 ^ (6 * i) % 64
      let y := b.toNat / 2 ^ (6 * i) % 64
      let z := (lmulOf a b).bits / 2 ^ (6 * i) % 64
      let n : Int := (lField x : Int) + lField y - 16
      if lField x = 0 ∨ lField y = 0 then z = 0
      else if n < 1 then z = 0
      else z = (lSign x + lSign y) % 2 * 32 + (min n 31).toNat) ∧
    (lmulOf a b).bits < 2 ^ 30 ∧
    ((lmulOf a b).flags / 4 % 2 = 1 ↔ ∃ i < 5, lField (a.toNat / 2 ^ (6 * i) % 64) ≠ 0 ∧ lField (b.toNat / 2 ^ (6 * i) % 64) ≠ 0 ∧
      47 < lField (a.toNat / 2 ^ (6 * i) % 64) + lField (b.toNat / 2 ^ (6 * i) % 64)) ∧
    ((lmulOf a b).flags / 8 % 2 = 1 ↔ ∃ i < 5, lField (a.toNat / 2 ^ (6 * i) % 64) ≠ 0 ∧ lField (b.toNat / 2 ^ (6 * i) % 64) ≠ 0 ∧
      lField (a.toNat / 2 ^ (6 * i) % 64) + lField (b.toNat / 2 ^ (6 * i) % 64) < 17)

/-- The value of a code under a scale (R163). -/
def Sys2Proof.lnsNum (c : Nat) (q : Int) : Rat :=
  if lField c = 0 then 0
  else (if lSign c = 1 then -1 else 1) * ((([4096, 4871, 5793, 6889].getD (lField c % 4) 0 : Nat) : Rat) / 4096) * twoTo ((lField c / 4 : Nat) - 4 + q)

/-- T[e mod 4] * 2^(floor(e/4) - 8 + q) with its sign, the exact product of R167. -/
def Sys2Proof.lnsProduct (a b : Nat) (q : Int) : Rat :=
  if lField a = 0 ∨ lField b = 0 then 0
  else (if (lSign a + lSign b) % 2 = 1 then -1 else 1) * ((([4096, 4871, 5793, 6889].getD ((lField a + lField b) % 4) 0 : Nat) : Rat) / 4096) *
    twoTo (((lField a + lField b) / 4 : Nat) - 8 + q)

/-- R167: LSUM rounds the exact sum of c and the five products once, to nearest even; R165: CVT.9 rounds the
value of its code. -/
def Obligations.LnsExactSums : Prop :=
  (∀ (q : Int) (a b : Word) (c : Nat), fIsFin f32 c →
    ∃ e : Ex, e.sticky = false ∧
      exValue e = fnum f32 c + lnsProduct (a.toNat % 64) (b.toNat % 64) q + lnsProduct (a.toNat / 2 ^ 6 % 64) (b.toNat / 2 ^ 6 % 64) q +
        lnsProduct (a.toNat / 2 ^ 12 % 64) (b.toNat / 2 ^ 12 % 64) q + lnsProduct (a.toNat / 2 ^ 18 % 64) (b.toNat / 2 ^ 18 % 64) q +
        lnsProduct (a.toNat / 2 ^ 24 % 64) (b.toNat / 2 ^ 24 % 64) q ∧
      (exValue e = 0 → (e.neg = true ↔ c = 0x80000000)) ∧ lsumOf q a b c = f32.round e 0) ∧
  (∀ (q : Int) (c : Nat) (mode : BitVec 2), c < 64 →
    ∃ e : Ex, e.sticky = false ∧ exValue e = lnsNum c q ∧ ofLns c q mode = f32.round e mode)

/-! ## The banked store and register bursts (R116, R117, R137 to R141) -/

/-- The group an address of scope `.core` names (R117). -/
def Sys2Proof.WindowOf (k : SlotCtx) (s : State) (e : Nat) (x : Group) : Prop :=
  x ∈ s.groups ∧ x.core = k.core ∧ x.gslot = e / 2 ^ 18 ∧ x.ctx = k.ctx ∧ x.resident = true

/-- R117, R138: where an address of a scope lies, or the cause of its fault; alignment is checked first. -/
def Sys2Proof.BankedAddressesRule : Prop :=
  ∀ (k : SlotCtx) (s : State) (e n : Nat),
    (e % n ≠ 0 → ∀ sc, bankCheck k s sc e n = .inl ⟨.misaligned, e, 0⟩) ∧
    (e % n = 0 →
      (bankCheck k s 0 e n = if e + n ≤ 4 * k.g.hdr.width * (8 * k.g.hdr.vregs8) then .inr (.win k.gid, e) else .inl ⟨.bounds, e, 0⟩) ∧
      (bankCheck k s 1 e n = if e + n ≤ 256 * (s.getBlock k.g.block).hdr.scratch then .inr (.blk k.g.block, e) else .inl ⟨.bounds, e, 0⟩) ∧
      (2 ^ 24 ≤ e → bankCheck k s 2 e n = .inl ⟨.bounds, e, 0⟩) ∧
      (e < 2 ^ 24 → (∀ x, ¬ WindowOf k s e x) → bankCheck k s 2 e n = .inl ⟨.rights, 0, 0⟩) ∧
      (∀ x, e < 2 ^ 24 → WindowOf k s e x → (∀ y, WindowOf k s e y → y = x) →
        bankCheck k s 2 e n = if e % 2 ^ 18 + n ≤ 4 * x.hdr.width * (8 * x.hdr.vregs8) then .inr (.win x.gid, e % 2 ^ 18)
          else .inl ⟨.bounds, e, 0⟩))

/-- A lane's address of a banked access: its operand plus the signed offset, as a 32-bit sum. -/
def Sys2Proof.bankE (k : SlotCtx) (s : State) (a : Src) (offs : BitVec 12) (l : Nat) : Nat :=
  ((((k.rd s a l).toNat : Int) + offs.toInt) % 2 ^ 32).toNat

/-- R116, R137, R138: LDB gives each executing lane the words at its address, or every lane the word at the
lowest lane's; STB writes the words of its lanes and no other word of the banked store, and where lanes write
one word the highest lane's stands. A word of the group's own window is a V register of a lane.
Where the rules leave a point open it states the model's reading (assumption 16). -/
def Obligations.BankedAccesses : Prop :=
  (∀ (s : State) (k : SlotCtx) (m : LdbW) (f : MForm) (at' : Nat → BankSpace × Nat), AtSlot s (.ldb m f) k → isSplit k.u = true → m ≠ .bcast →
    k.g.writeBacks = [] →
    (∀ l ∈ k.lanes, bankCheck (enteredCtx s k) (entered s k) f.scope.toNat (bankE k s f.addr f.offs l) (4 * ldbWords m) = .inr (at' l)) →
    exec (.ldb m f) s = .next (ended (entered s k) (enteredCtx s k) (onLanes k (fun l =>
      readBank (entered s k) (at' l).1 (at' l).2 (ldbWords m))))) ∧
  (∀ (s : State) (k : SlotCtx) (f : MForm) (b : BankSpace) (off l0 : Nat), AtSlot s (.ldb .bcast f) k → isSplit k.u = true → k.g.writeBacks = [] →
    l0 ∈ k.lanes → (∀ l ∈ k.lanes, l0 ≤ l) →
    bankCheck (enteredCtx s k) (entered s k) f.scope.toNat (bankE k s f.addr f.offs l0) 4 = .inr (b, off) →
    exec (.ldb .bcast f) s = .next (ended (entered s k) (enteredCtx s k) (onLanes k (fun _ => readBank (entered s k) b off 1)))) ∧
  (∀ (s : State) (k : SlotCtx) (m : Width3) (f : SForm) (at' : Nat → BankSpace × Nat), AtSlot s (.stb m f) k → isSplit k.u = true →
    k.g.writeBacks = [] →
    (∀ l ∈ k.lanes, bankCheck (enteredCtx s k) (entered s k) f.scope.toNat (bankE k s f.addr f.offs l) (4 * widthWords m) = .inr (at' l)) →
    let stores (b : BankSpace) (w l : Nat) : Prop := (at' l).1 = b ∧ (at' l).2 ≤ 4 * w ∧ 4 * w < (at' l).2 + 4 * widthWords m
    ∃ t, exec (.stb m f) s = .next (ended t (enteredCtx s k) []) ∧ t.mem = s.mem ∧
      (∀ b w, (∀ l ∈ k.lanes, ¬ stores b w l) → readBank t b (4 * w) 1 = readBank (entered s k) b (4 * w) 1) ∧
      (∀ b w, ∀ l ∈ k.lanes, stores b w l → (∀ l' ∈ k.lanes, l < l' → ¬ stores b w l') →
        readBank t b (4 * w) 1 = [k.word s f.data l (w - (at' l).2 / 4)])) ∧
  (∀ (s : State) (gid i l : Nat), l < (s.getGroup gid).hdr.width →
    readBank s (.win gid) ((i * (s.getGroup gid).hdr.width + l) * 4) 1 = [(s.getGroup gid).vreg i l])

/-- R138: a lane whose address faults traps with its cause; the others complete. -/
def Sys2Proof.BankedFaultsRule : Prop :=
  (∀ (s : State) (k : SlotCtx) (m : LdbW) (f : MForm), AtSlot s (.ldb m f) k → isSplit k.u = true → m ≠ .bcast → k.g.writeBacks = [] →
    let faulty (l : Nat) : Option LaneFault :=
      match bankCheck (enteredCtx s k) (entered s k) f.scope.toNat (bankE k s f.addr f.offs l) (4 * ldbWords m) with
      | .inl x => some x
      | .inr _ => none
    (∃ l ∈ k.lanes, (faulty l).isSome) →
    ∃ commit, exec (.ldb m f) s = .next (trapAt (entered s k) (enteredCtx s k) ⟨0, k.lanes.filterMap (fun l => (faulty l).map (fun x => (l, x)))⟩ commit)) ∧
  (∀ (s : State) (k : SlotCtx) (m : Width3) (f : SForm), AtSlot s (.stb m f) k → isSplit k.u = true → k.g.writeBacks = [] →
    let faulty (l : Nat) : Option LaneFault :=
      match bankCheck (enteredCtx s k) (entered s k) f.scope.toNat (bankE k s f.addr f.offs l) (4 * widthWords m) with
      | .inl x => some x
      | .inr _ => none
    (∃ l ∈ k.lanes, (faulty l).isSome) →
    ∃ commit, exec (.stb m f) s = .next (trapAt (entered s k) (enteredCtx s k) ⟨0, k.lanes.filterMap (fun l => (faulty l).map (fun x => (l, x)))⟩ commit))

/-- Both of the rules above: BankedAddressesRule, BankedFaultsRule. -/
def Obligations.BankedAddressing : Prop := Sys2Proof.BankedAddressesRule ∧ Sys2Proof.BankedFaultsRule

/-- R140, R141: SPILL queues the executing lanes' words of n registers at SPILLBASE + SPILLLIM - o - n * 4 * WIDTH
and FILL loads them from there; register j of lane l lies at j * 4 * WIDTH + 4 * l of the burst.
Where the rules leave a point open it states the model's reading (assumption 18). -/
def Obligations.RegisterBursts : Prop :=
  (∀ (s : State) (k : SlotCtx) (f : VForm) (first : BitVec 9) (n o : Nat) (ps : List (Nat × Nat × Nat × Nat)), AtSlot s (.spill f) k →
    isSplit k.u = true → f.a = .v first → k.ex ≠ 0 →
    (∀ l ∈ k.lanes, (k.rd s f.b l).toNat = n ∧ (k.rd s f.c l).toNat = o) → 1 ≤ n → n ≤ 64 → o % 16 = 0 →
    first.toNat + n ≤ 8 * k.g.hdr.vregs8 →
    k.g.bb + k.g.maxDepth * 4 * k.g.hdr.width + o + n * 4 * k.g.hdr.width ≤ k.g.spillLim → storeRoom (enteredCtx s k) = true →
    (burstPieces (enteredCtx s k) .write (k.g.spillBase + (k.g.spillLim - o - n * 4 * k.g.hdr.width)) (n * 4 * k.g.hdr.width) (entered s k)).2 = .inr ps →
    let s2 := (burstPieces (enteredCtx s k) .write (k.g.spillBase + (k.g.spillLim - o - n * 4 * k.g.hdr.width)) (n * 4 * k.g.hdr.width) (entered s k)).1
    ∃ es : List QEntry,
      exec (.spill f) s = .next (ended ((addEntries s2 k.gid es).updGroup k.gid (fun g => { g with burst := max g.burst (o + n * 4 * g.hdr.width) }))
        (enteredCtx s k) []) ∧
      (∀ e ∈ es, e.kind = .store) ∧
      (∀ x : Nat × Byte, (∃ e ∈ es, x ∈ e.data) ↔
        ∃ p ∈ ps, ∃ i < p.2.2.1, (p.1 + i) % (4 * k.g.hdr.width) / 4 ∈ k.lanes ∧
          x = (p.2.1 + i, byteOf (k.g.vreg (first.toNat + (p.1 + i) / (4 * k.g.hdr.width)) ((p.1 + i) % (4 * k.g.hdr.width) / 4)) ((p.1 + i) % 4)))) ∧
  (∀ (s : State) (k : SlotCtx) (f : VForm) (n o : Nat) (ps : List (Nat × Nat × Nat × Nat)), AtSlot s (.fill f) k → isSplit k.u = true → k.ex ≠ 0 →
    (∀ l ∈ k.lanes, (k.rd s f.a l).toNat = n ∧ (k.rd s f.b l).toNat = o) → 1 ≤ n → n ≤ 64 → o % 16 = 0 →
    f.dst.idx.toNat + n ≤ 8 * k.g.hdr.vregs8 → k.g.bb + o + n * 4 * k.g.hdr.width ≤ k.g.spillLim → loadRoom (enteredCtx s k) = true →
    k.g.queue = [] →
    (burstPieces (enteredCtx s k) .read (k.g.spillBase + (k.g.spillLim - o - n * 4 * k.g.hdr.width)) (n * 4 * k.g.hdr.width) (entered s k)).2 = .inr ps →
    let s2 := (burstPieces (enteredCtx s k) .read (k.g.spillBase + (k.g.spillLim - o - n * 4 * k.g.hdr.width)) (n * 4 * k.g.hdr.width) (entered s k)).1
    ∃ ls : List PLoad,
      exec (.fill f) s = .next (ended (addLoads s2 k.gid ls) (enteredCtx s k) []) ∧
      (∀ x : PLoad, x ∈ ls ↔
        ∃ p ∈ ps, ∃ i < p.2.2.1 / 4, (p.1 + 4 * i) % (4 * k.g.hdr.width) / 4 ∈ k.lanes ∧
          x = ⟨(p.1 + 4 * i) % (4 * k.g.hdr.width) / 4, k.g.issues, p.2.1 + 4 * i,
            k.g.spillBase + (k.g.spillLim - o - n * 4 * k.g.hdr.width) + p.1 + 4 * i, 4, 5, .plain,
            ⟨f.dst, f.dst.kind && k.lanes.head? == some ((p.1 + 4 * i) % (4 * k.g.hdr.width) / 4), k.c.issue, k.c.slot,
              (p.1 + 4 * i) / (4 * k.g.hdr.width), 1⟩⟩))

/-! ## Handles and tensors (R170 to R175, R188 to R191) -/

/-- A layout record is in the handle cache of the unit's core. -/
def Sys2Proof.Cached (s : State) (k : SlotCtx) (i : Nat) (b : List Byte) : Prop :=
  s.vis.hcache.find? (fun e => e.core == k.core && e.ctx == k.ctx && e.idx == i) = some ⟨k.core, k.ctx, i, b⟩

/-- The words HINFO gives (R189). -/
def Sys2Proof.hinfoWord (b : List Byte) (sel : Nat) : Nat :=
  if sel < 3 then leAt b (8 + 4 * sel) 4
  else if sel < 8 then leAt b (20 + 4 * (sel - 3)) 4
  else if sel < 10 then leAt b (4 * (sel - 8)) 4
  else if sel < 18 then leAt b (40 + 6 * ((sel - 10) / 2) + (if sel % 2 = 0 then 0 else 2)) 4
  else 0

/-- R188 to R190 over records the core has cached: HBIND makes a handle of an index, HINFO gives a field of a
handle's record; HINV of one index raises the record's GEN by one and no core keeps the record.
Where the rules leave a point open it states the model's reading (assumptions 11 and 24). -/
def Obligations.HandleInstructions : Prop :=
  (∀ (s : State) (k : SlotCtx) (f : VForm) (b : Nat → List Byte), AtSlot s (.hbind f) k →
    (∀ l ∈ k.lanes, (k.rd s f.a l).toNat < handleCount (s.getCtx k.ctx) ∧ Cached s k (k.rd s f.a l).toNat (b l)) →
    ∃ h, exec (.hbind f) s = .next (ended { (entered s k) with vis := { s.vis with hcache := h } } (enteredCtx s k)
      (onLanes k (fun l => [BitVec.ofNat 32 (leAt (b l) 10 1 * 2 ^ 24 + (k.rd s f.a l).toNat)])))) ∧
  (∀ (s : State) (k : SlotCtx) (f : VForm) (b : Nat → List Byte), AtSlot s (.hinfo f) k →
    (∀ l ∈ k.lanes, (k.rd s f.a l).toNat % 2 ^ 24 < handleCount (s.getCtx k.ctx) ∧ Cached s k ((k.rd s f.a l).toNat % 2 ^ 24) (b l) ∧
      leAt (b l) 10 1 = (k.rd s f.a l).toNat / 2 ^ 24 ∧ (b l).length = 64) →
    ∃ h, exec (.hinfo f) s = .next (ended { (entered s k) with vis := { s.vis with hcache := h } } (enteredCtx s k)
      (onLanes k (fun l => [BitVec.ofNat 32 (hinfoWord (b l) (k.rd s f.b l).toNat)])))) ∧
  (∀ (s : State) (k : SlotCtx) (f : VForm) (i pa ip : Nat), AtSlot s (.hinv f) k → k.ex ≠ 0 → (∀ l ∈ k.lanes, (k.rd s f.a l).toNat = i) →
    i < handleCount (s.getCtx k.ctx) →
    let tr := translate (entered s k) k.who k.core k.ctx (recordAddr (s.getCtx k.ctx) i) .rmw
    tr.2 = .ok pa ip → s.vis.isOwned (pa / 64) = false → k.g.queue = [] →
    ∃ t, exec (.hinv f) s = .next (ended t (enteredCtx s k)
        (onLanes k (fun _ => [BitVec.ofNat 32 (((tr.1.rdByte (pa + 10)).toNat + 1) % 256 * 2 ^ 24 + i)]))) ∧
      (∀ e ∈ t.vis.hcache, ¬ (e.ctx = k.ctx ∧ e.idx = i)) ∧ (∃ c ∈ t.vis.commits, c.sector = pa / 64 ∧ c.time = s.now))

/-- The sum of R175: base and coordinates times strides. -/
def Sys2Proof.tensorSum (b : List Byte) : List Int → Nat → Int
  | [], _ => (leAt b 0 8 : Nat)
  | c :: cs, i => c * recStr b i + tensorSum b cs (i + 1)

/-- The coordinates of a lane: the first plus the offset, as 32-bit numbers (R191). -/
def Sys2Proof.coordsOf (k : SlotCtx) (s : State) (coord : Src) (offs : BitVec 12) (rank l : Nat) : List Int :=
  (List.range rank).map (fun j => if j = 0 then (k.word s coord l 0 + offs.signExtend 32).toInt else (k.word s coord l j).toInt)

/-- R175: in bounds, the element lies at base plus the sum of coordinates times strides; out of bounds, mode 0
pads a load and drops a store, mode 1 clamps a load and drops a store, mode 2 faults. -/
def Sys2Proof.TensorAddressingRule : Prop :=
  ∀ (k : SlotCtx) (s : State) (b : List Byte) (coord : Src) (offs : BitVec 12) (store : Bool) (l : Nat),
    recordValid b = true → srcIn k.g.vregs 128 (coord, recRank b) = true →
    let rank := recRank b
    let es := elemSize (recType b)
    let cs := coordsOf k s coord offs rank l
    let inside := ∀ j < rank, 0 ≤ cs.getD j 0 ∧ cs.getD j 0 < recDim b j
    let at' (e : Int) (r : LaneFault ⊕ TLane) : Prop :=
      (e < 0 ∨ 2 ^ 56 ≤ e → ∃ a, r = .inl ⟨.bounds, a, 0⟩) ∧
      (0 ≤ e → e < 2 ^ 56 → recScratch b = false → r = .inr (.mem e.toNat es (elemSigned (recType b)))) ∧
      (0 ≤ e → e < 2 ^ 56 → recScratch b = true →
        r = if e.toNat + es ≤ 256 * (s.getBlock k.g.block).hdr.scratch then .inr (.scr e.toNat es (elemSigned (recType b))) else .inl ⟨.bounds, e.toNat, 0⟩)
    let r := tensorLane k s b coord offs store l
    (inside → at' (tensorSum b cs 0) r) ∧
    (¬ inside → recMode b = 0 → r = if store then .inr .drop else .inr (.pad (extendElem es (elemSigned (recType b)) (leAt b 16 es)))) ∧
    (¬ inside → recMode b = 1 → store = true → r = .inr .drop) ∧
    (¬ inside → recMode b = 1 → store = false →
      at' (tensorSum b ((List.range rank).map (fun j => if cs.getD j 0 < 0 then 0 else if recDim b j ≤ cs.getD j 0 then (recDim b j : Int) - 1 else cs.getD j 0)) 0) r) ∧
    (¬ inside → recMode b = 2 → ∃ a, r = .inl ⟨.bounds, a, 0⟩)

/-- The bytes that entries would write: of lanes that write one byte, the highest stands (R191, R192). -/
def Sys2Proof.HighestStands (acs : List Acc) (bytes : Acc → List Byte) (es : List QEntry) : Prop :=
  ∀ x : Nat × Byte, (∃ e ∈ es, e.kind = .store ∧ x ∈ e.data) ↔
    ∃ i, ∃ h : i < acs.length, x ∈ bytesAt (acs[i]).pa (bytes acs[i]) ∧
      ∀ j, ∀ h' : j < acs.length, i < j → x.1 ∉ (bytesAt (acs[j]).pa (bytes acs[j])).map (fun y => y.1)

/-- R191: with every executing lane's handle, coordinates and translation in order, LDT leaves one load per
memory element and gives padded and scratchpad elements at once; STT queues one store per memory element,
writes scratchpad elements and drops the rest. -/
def Sys2Proof.TensorAccessesRule : Prop :=
  (∀ (s : State) (k : SlotCtx) (f : MForm) (s1 s2 : State) (ts : List (Nat × TLane)) (acs : List Acc), AtSlot s (.ldt f) k → k.ex ≠ 0 →
    loadRoom (enteredCtx s k) = true → tensorLanes (enteredCtx s k) f.addr f.coord f.offs false (entered s k) = (s1, some ([], ts)) →
    translateLanes (enteredCtx s k) .read 1 (memOf ts) s1 = (s2, some ([], acs)) →
    exec (.ldt f) s = .next (ended
      (addLoads s2 k.gid (acs.map (fun a => ⟨a.lane, (enteredCtx s k).g.issues, a.pa, a.va, (elemOf ts a.lane).1, f.scope.toNat,
        .elem (elemOf ts a.lane).1 (elemOf ts a.lane).2, (enteredCtx s k).wb f.data a.lane 1⟩)))
      (enteredCtx s k)
      (ts.filterMap (fun t => match t.2 with
        | .pad w => some (t.1, [w])
        | .scr off es sg => some (t.1, [extendElem es sg ((s2.getBlock (enteredCtx s k).g.block).nat off es)])
        | _ => none)))) ∧
  (∀ (s : State) (k : SlotCtx) (f : SForm) (s1 s2 : State) (ts : List (Nat × TLane)) (acs : List Acc), AtSlot s (.stt f) k → k.ex ≠ 0 →
    storeRoom (enteredCtx s k) = true → tensorLanes (enteredCtx s k) f.addr f.coord f.offs true (entered s k) = (s1, some ([], ts)) →
    translateLanes (enteredCtx s k) .write 1 (memOf ts) s1 = (s2, some ([], acs)) →
    ∃ t es, exec (.stt f) s = .next (ended (addEntries t k.gid es) (enteredCtx s k) []) ∧ t.mem = s2.mem ∧
      HighestStands acs (fun a => bytesOfNat (elemOf ts a.lane).1 (k.rd s f.data a.lane).toNat) es)

/-- Both of the rules above: TensorAddressingRule, TensorAccessesRule.
Where the rules leave a point open it states the model's reading (assumptions 11 and 24). -/
def Obligations.TensorInstructions : Prop := Sys2Proof.TensorAddressingRule ∧ Sys2Proof.TensorAccessesRule

/-! ## Address accesses and atomics (R192 to R196) -/

/-- R192: each executing lane's access, lanes ascending, at its operand plus the signed offset. -/
def Sys2Proof.AccessesOf (k : SlotCtx) (s : State) (a : Src) (offs : BitVec 12) (acs : List Acc) : Prop :=
  acs.map (fun x => (x.lane, x.va)) = k.lanes.map (fun l => (l, ((((k.rd64 s a l : Nat) : Int) + offs.toInt) % 2 ^ 64).toNat))

/-- R192, R194 to R196, R216: with every lane's address in order, LDG, LR and ARM leave one load per executing
lane, STG queues the stored bytes and SC one conditional store per lane; PREF does nothing.
Where the rules leave a point open it states the model's reading (assumptions 22 and 26). -/
def Obligations.AddressAccesses : Prop :=
  (∀ (s s2 : State) (k : SlotCtx) (m : Width3) (f : MForm) (acs : List Acc), AtSlot s (.ldg m f) k → k.ex ≠ 0 → loadRoom (enteredCtx s k) = true →
    translateLanes (enteredCtx s k) .read (4 * widthWords m) (k.lanes.map (fun l => (l, memAddr k s f.addr f.offs l))) (entered s k) = (s2, some ([], acs)) →
    AccessesOf k s f.addr f.offs acs ∧
    exec (.ldg m f) s = .next (ended (addLoads s2 k.gid (acs.map (fun a => ⟨a.lane, (enteredCtx s k).g.issues, a.pa, a.va, 4 * widthWords m, f.scope.toNat,
      .plain, (enteredCtx s k).wb f.data a.lane (widthWords m)⟩))) (enteredCtx s k) [])) ∧
  (∀ (s s2 : State) (k : SlotCtx) (f : MForm) (acs : List Acc), k.ex ≠ 0 → loadRoom (enteredCtx s k) = true →
    translateLanes (enteredCtx s k) .read 4 (k.lanes.map (fun l => (l, memAddr k s f.addr f.offs l))) (entered s k) = (s2, some ([], acs)) →
    let loads (kd : LKind) := addLoads s2 k.gid (acs.map (fun a =>
      ⟨a.lane, (enteredCtx s k).g.issues, a.pa, a.va, 4, f.scope.toNat, kd, (enteredCtx s k).wb f.data a.lane 1⟩))
    (AtSlot s (.lr f) k → AccessesOf k s f.addr f.offs acs ∧ exec (.lr f) s = .next (ended (loads .lr) (enteredCtx s k) [])) ∧
    (AtSlot s (.arm f) k → AccessesOf k s f.addr f.offs acs ∧ exec (.arm f) s = .next (ended (loads .arm) (enteredCtx s k) []))) ∧
  (∀ (s s2 : State) (k : SlotCtx) (m : Width3) (f : SForm) (acs : List Acc), AtSlot s (.stg m f) k → k.ex ≠ 0 → storeRoom (enteredCtx s k) = true →
    translateLanes (enteredCtx s k) .write (4 * widthWords m) (k.lanes.map (fun l => (l, memAddr k s f.addr f.offs l))) (entered s k) = (s2, some ([], acs)) →
    ∃ es, exec (.stg m f) s = .next (ended (addEntries s2 k.gid es) (enteredCtx s k) []) ∧ AccessesOf k s f.addr f.offs acs ∧
      HighestStands acs (fun a => (k.rdWords s f.data a.lane (widthWords m)).flatMap bytesOfWord) es) ∧
  (∀ (s s2 : State) (k : SlotCtx) (f : MForm) (acs : List Acc), AtSlot s (.sc f) k → k.ex ≠ 0 → storeRoom (enteredCtx s k) = true →
    translateLanes (enteredCtx s k) .rmw 4 (k.lanes.map (fun l => (l, memAddr k s f.addr f.offs l))) (entered s k) = (s2, some ([], acs)) →
    AccessesOf k s f.addr f.offs acs ∧
    exec (.sc f) s = .next (ended (addEntries s2 k.gid (acs.map (fun a => ⟨a.lane, (enteredCtx s k).g.issues, a.pa, a.va, a.ipage, [],
      .sc (k.rd s f.coord a.lane), some ((enteredCtx s k).wb f.data a.lane 1)⟩))) (enteredCtx s k) [])) ∧
  (∀ (s : State) (k : SlotCtx) (f : MForm), AtSlot s (.pref f) k → exec (.pref f) s = .next (ended (entered s k) (enteredCtx s k) []))

/-- R193: the new value of an atomic operation on old value `o` with operand `v`. -/
def Sys2Proof.AtomRule : AtomOp → Word → Word → Word → Prop
  | .add, o, v, r => r.toNat = (o.toNat + v.toNat) % 2 ^ 32
  | .min, o, v, r => r.toInt = min o.toInt v.toInt
  | .max, o, v, r => r.toInt = max o.toInt v.toInt
  | .and, o, v, r => ∀ j, r.getLsbD j = (o.getLsbD j && v.getLsbD j)
  | .or, o, v, r => ∀ j, r.getLsbD j = (o.getLsbD j || v.getLsbD j)
  | .xor, o, v, r => ∀ j, r.getLsbD j = (o.getLsbD j != v.getLsbD j)
  | .exch, _, v, r => r = v
  | .fadd, o, v, r => r = BitVec.ofNat 32 (arith .add f32 o.toNat v.toNat 0 false).bits

/-- R193: the values of the atomic operations; CAS writes its second word where the old value equals the first. -/
def Sys2Proof.AtomicValuesRule : Prop :=
  (∀ (op : AtomOp) (f : MForm) (o v n : Word), AtomRule op o v (rmwOf (.atom op f) o v n)) ∧
  (∀ (f : MForm) (o v n : Word), rmwOf (.cas f) o v n = if o = v then n else o) ∧
  (∀ (s : State) (g : Group) (e : QEntry) (op : AtomOp) (v : Word), e.kind = .atom op v →
    (commitVal s g e).res = wordOfBytes (s.rdBytes e.pa 4) ∧
    ∃ r, AtomRule op (wordOfBytes (s.rdBytes e.pa 4)) v r ∧ (commitVal s g e).data = bytesAt e.pa (bytesOfWord r)) ∧
  (∀ (s : State) (g : Group) (e : QEntry) (c n : Word), e.kind = .cas c n →
    (commitVal s g e).res = wordOfBytes (s.rdBytes e.pa 4) ∧
    (commitVal s g e).data = if wordOfBytes (s.rdBytes e.pa 4) = c then bytesAt e.pa (bytesOfWord n) else []) ∧
  (∀ (s : State) (g : Group) (e : QEntry) (x : Word), e.kind = .sc x →
    (g.resv.get e.lane .none = .held (sectorOf e.pa) → (commitVal s g e).res = 1 ∧ (commitVal s g e).data = bytesAt e.pa (bytesOfWord x)) ∧
    (g.resv.get e.lane .none ≠ .held (sectorOf e.pa) → (commitVal s g e).res = 0 ∧ (commitVal s g e).data = []))

def Sys2Proof.isRmw (i : Instr) (f : MForm) : Prop := (∃ op, i = .atom op f) ∨ i = .cas f

/-- R193: in the banked store an atomic gives each executing lane the old word, lanes ascending, and is done at
once; at the homes it queues one entry per lane, and the slot is past when all are sent. -/
def Sys2Proof.AtomicAccessesRule : Prop :=
  (∀ (s : State) (k : SlotCtx) (i : Instr) (f : MForm) (at' : Nat → BankSpace × Nat), isRmw i f → AtSlot s i k → isSplit k.u = true → k.ex ≠ 0 →
    f.scope.toNat < 3 → k.g.writeBacks = [] →
    (∀ l ∈ k.lanes, bankCheck (enteredCtx s k) (entered s k) f.scope.toNat (bankE k s f.addr f.offs l) 4 = .inr (at' l)) →
    let r := rmwBank i f (enteredCtx s k) (k.lanes.map (fun l => (l, at' l))) (entered s k)
    exec i s = .next (ended (r.1.updGroup k.gid (fun g => { g with wdog := 0 })) (enteredCtx s k) r.2)) ∧
  (∀ (i : Instr) (f : MForm) (k : SlotCtx) (s : State) (l : Nat) (b : BankSpace) (off : Nat) (ts : List (Nat × BankSpace × Nat)),
    let t := writeBank s b off [rmwOf i ((readBank s b off 1).headD 0) (rmwOperands i f k s l).1 (rmwOperands i f k s l).2]
    rmwBank i f k ((l, b, off) :: ts) s = ((rmwBank i f k ts t).1, (l, [(readBank s b off 1).headD 0]) :: (rmwBank i f k ts t).2)) ∧
  (∀ (s s2 : State) (k : SlotCtx) (i : Instr) (f : MForm) (acs : List Acc), isRmw i f → AtSlot s i k → k.ex ≠ 0 → 3 ≤ f.scope.toNat → k.c.sent = 0 →
    translateLanes (enteredCtx s k) .rmw 4 (k.lanes.map (fun l => (l, memAddr k s f.addr f.offs l))) (entered s k) = (s2, some ([], acs)) →
    k.g.loadCount k.sp.mask + acs.length ≤ 15 → k.g.storeCount k.sp.mask + acs.length ≤ 15 →
    exec i s = .next (ended (addEntries s2 k.gid (acs.map (fun a => ⟨a.lane, (enteredCtx s k).g.issues, a.pa, a.va, a.ipage, [],
      rmwKind i (rmwOperands i f k s a.lane).1 (rmwOperands i f k s a.lane).2, some ((enteredCtx s k).wb f.data a.lane 1)⟩))) (enteredCtx s k) []))

/-- Both of the rules above: AtomicValuesRule, AtomicAccessesRule.
Where the rules leave a point open it states the model's reading (assumption 22). -/
def Obligations.Atomics : Prop := Sys2Proof.AtomicValuesRule ∧ Sys2Proof.AtomicAccessesRule

/-! ## Visibility (R200 to R210, R216 to R218) -/

/-- R205: a FENCE passes once its release half has nothing to wait for; its acquire half makes copies granted
before now stale. R218: TIME gives the device time, its window, MAXGWCT or LASTSEND. -/
def Obligations.FenceAndTime : Prop :=
  (∀ (s : State) (k : SlotCtx) (m : FenceKind) (f : VForm), AtSlot s (.fence m f) k → isSplit k.u = true → k.ex ≠ 0 →
    let sc := f.moda.toNat * 4 + f.modb.toNat
    k.g.loadsOf k.sp.mask = [] →
    (m ≠ .acq → k.g.queueOf k.sp.mask = [] ∧ (4 ≤ sc → k.sp.maxgwct ≤ s.now) ∧ (7 ≤ sc → k.sp.lastsend = 0 ∨ k.sp.lastsend + 2 ≤ s.now / 1024)) →
    ∃ t, exec (.fence m f) s = .next (ended t (enteredCtx s k) []) ∧
      (m = .rel ∨ sc < 4 → t = entered s k) ∧
      (m ≠ .rel → 4 ≤ sc → t = (entered s k).updGroup k.gid (fun g => match g.split? k.entry with
        | some sp => g.setSplit k.entry (some { sp with acqt := max sp.acqt s.now })
        | none => g))) ∧
  (∀ (s : State) (k : SlotCtx) (f : VForm), AtSlot s (.time f) k → isSplit k.u = true →
    let x (l : Nat) : Nat := if (k.rd s f.a l).toNat = 0 then s.now else if (k.rd s f.a l).toNat = 1 then s.now / 1024
      else if (k.rd s f.a l).toNat = 2 then k.sp.maxgwct else if (k.rd s f.a l).toNat = 3 then k.sp.lastsend else 0
    exec (.time f) s = .next (ended (entered s k) (enteredCtx s k) (onLanes k (fun l => [BitVec.ofNat 32 (x l), BitVec.ofNat 32 (x l / 2 ^ 32)])))) ∧
  (∀ (s : State) (k : SlotCtx) (f : VForm), AtSlot s (.waitm f) k → isSplit k.u = true → k.park = none → k.ex ≠ 0 →
    (∀ l ∈ k.lanes, k.g.monitors.get l .none = .none) →
    exec (.waitm f) s = .next (ended (entered s k) (enteredCtx s k) (onLanes k (fun _ => [3])))) ∧
  (∀ (s : State) (k : SlotCtx) (f : VForm), AtSlot s (.waitm f) k → isSplit k.u = true → k.park = none → k.ex ≠ 0 →
    (∃ l ∈ k.lanes, k.g.monitors.get l .none = .fired ∨ k.g.monitors.get l .none = .lost) →
    ∃ t, exec (.waitm f) s = .next (ended t (enteredCtx s k) (onLanes k (fun l => [match k.g.monitors.get l .none with
        | .fired => 1 | .lost => 2 | .none => 3 | .armed _ => 0]))) ∧
      ∀ l ∈ k.lanes, (t.getGroup k.gid).monitors.get l .none = .none)

/-- R200, R210: a permitted entry commits: its bytes are in memory, the commit is recorded with its GWCT, which
MAXGWCT of its split takes in, the copies of its own cluster are patched, and the entry is gone. -/
def Sys2Proof.StoreCommits (i : Instr) (gid idx : Nat) (host : Bool) : Prop :=
  ∀ (s : State) (g : Group) (e : QEntry), s.group? gid = some g → g.queue[idx]? = some e → mayCommit s g idx e = true → e.kind = .store →
    e.data ≠ [] → (homeOf e.pa = 4 ↔ host = true) → e.wb = none →
    (markDirty { s with mem := memWrite s.mem e.data } g.ctx e.ipage).2 = false →
    ∃ t, exec i s = .next t ∧ t.mem = memWrite s.mem e.data ∧
      t.vis.commits = ⟨sectorOf e.pa, s.now, s.gwctOf (sectorOf e.pa)⟩ :: s.vis.commits ∧
      (∀ c ∈ t.vis.copies, c.sector = sectorOf e.pa → clusterOf c.core = clusterOf g.core → c.version = t.vis.version (sectorOf e.pa)) ∧
      (∀ m ∈ t.vis.mons, m.sector ≠ sectorOf e.pa) ∧
      ∃ g', t.group? gid = some g' ∧ g'.queue = g.queue.take idx ++ g.queue.drop (idx + 1) ∧ g'.win = g.win ∧ g'.wdog = 0 ∧
        ∀ n sp, g.split? n = some sp → sp.mask.getLsbD e.lane = true →
          ∃ sp', g'.split? n = some sp' ∧ sp'.maxgwct = max sp.maxgwct (s.gwctOf (sectorOf e.pa))

/-- R200 to R203, R210, R217: what the visibility machine's events do when they are permitted.
Where the rules leave a point open it states the model's reading (assumptions 9, 22 and 23). -/
def Obligations.VisibilityEvents : Prop :=
  (∀ gid idx, StoreCommits (.storeCommit gid idx) gid idx false) ∧ (∀ gid idx, StoreCommits (.hostStoreAck gid idx) gid idx true) ∧
  (∀ (s : State) (gid idx : Nat) (g : Group) (l : PLoad), s.group? gid = some g → g.loads[idx]? = some l → s.vis.isOwned (l.pa / 64) = false →
    homeOf (l.pa / 64 * 64) ≠ 4 →
    ∃ t c, exec (.copyGrant gid idx) s = .next t ∧ t = { s with vis := t.vis } ∧ c ∈ t.vis.copies ∧ c.core = g.core ∧ c.sector = l.pa / 64 ∧
      c.val = s.rdBytes (l.pa / 64 * 64) 64 ∧ c.granted = s.now ∧ s.now + 64 ≤ c.leaseEnd ∧ c.leaseEnd ≤ s.now + 4096 ∧
      t.vis.leases = ⟨l.pa / 64, c.leaseEnd⟩ :: s.vis.leases) ∧
  (∀ (s : State) (gid idx : Nat) (grant : Bool) (g : Group) (l : PLoad), s.group? gid = some g → g.loads[idx]? = some l → l.kind = .plain →
    (∃ src, loadSource s g idx l = src ∧ (match src with | .held => False | _ => True)) →
    ∃ t, exec (.loadPerform gid idx grant) s = .next t ∧ t.mem = s.mem ∧
      ∃ g', t.group? gid = some g' ∧ g'.loads = g.loads.take idx ++ g.loads.drop (idx + 1) ∧ g'.queue = g.queue ∧
        ((∀ j < l.n, ∃ b, forward (g.queueOf (g.mates l.lane)) l.tag (l.pa + j) = some b) → l.wb.dst.sup = false → l.wb.dst.kind = false →
          l.lane < g.hdr.width → l.n = 4 →
          g'.vreg (l.wb.dst.idx.toNat + l.wb.word) l.lane =
            wordOfBytes ((List.range 4).map (fun j => (forward (g.queueOf (g.mates l.lane)) l.tag (l.pa + j)).getD 0)))) ∧
  (∀ (s : State) (r : SplitRef) (g : Group) (sp : Split) (p : Park) (till : Nat), s.group? r.gid = some g → g.split? r.entry = some sp →
    sp.st = .parked p → p.kind = .waitm (some till) → p.wake = none → till ≤ s.now →
    ∃ t g', exec (.waitmTimeout r) s = .next t ∧ t = { s with groups := t.groups } ∧ t.group? r.gid = some g' ∧
      g' = g.setSplit r.entry (some { sp with st := .parked { p with wake := some 0 } }))

/-! ## Copy engines, futures and arrival words (R208, R209, R220 to R240) -/

/-- R222: the token of the next operation of a context on a cluster. -/
def Sys2Proof.nextToken (s : State) (ctx cluster : Nat) : Word :=
  let last := (s.getCtx ctx).serials.get cluster 0
  BitVec.ofNat 32 (cluster * 2 ^ 24 + (if 0xFFFFFF ≤ last then 1 else last + 1))

/-- The descriptor word of an X-format instruction (R228). -/
def Sys2Proof.descWord (k : SlotCtx) (f : XForm) (i : Nat) : Nat :=
  match f.a with
  | .scalar a => (k.sword (a.toNat + i)).toNat
  | _ => 0

/-- The rows of a descriptor (R228). -/
def Sys2Proof.copyRows (mode : Nat) (f : XForm) (k : SlotCtx) (s : State) : List (Int × Int) :=
  let d := descWord k f
  let a := (BitVec.ofNat 32 (d 6)).toInt
  let b := (BitVec.ofNat 32 (d 7)).toInt
  let idx (i : Nat) : Nat := (s.getBlock k.block).nat (d 7 + 4 * i) 4
  if d 4 = 0 then []
  else (List.range (d 5 % 65536)).map (fun i =>
    ((if mode = 1 then ((d 0 + d 1 * 2 ^ 32 : Nat) : Int) + idx i * a else if mode = 0 then ((d 0 + d 1 * 2 ^ 32 : Nat) : Int) + i * a
        else (d 0 + d 1 * 2 ^ 32 + i * d 4 : Nat)),
     (if mode = 2 then ((d 2 + d 3 * 2 ^ 32 : Nat) : Int) + idx i * a else if mode = 0 then ((d 2 + d 3 * 2 ^ 32 : Nat) : Int) + i * b
        else (d 2 + d 3 * 2 ^ 32 + i * d 4 : Nat))))

/-- A descriptor that keeps R228 to R230: reserved bits, the remote flag, the index table, the rows, the arrival
word. -/
structure Sys2Proof.CopyOk (mode : Nat) (f : XForm) (k : SlotCtx) (s : State) : Prop where
  reg : ∃ a : BitVec 7, f.a = .scalar a ∧ a.toNat ≤ (if isSplit k.u then 120 else 24)
  src : if f.flags.getLsbD 0 then descWord k f 1 = 0 else descWord k f 1 < 2 ^ 24
  dst : if f.flags.getLsbD 1 then descWord k f 3 = 0 else descWord k f 3 < 2 ^ 24
  bytes : descWord k f 4 < 2 ^ 24
  rows : descWord k f 5 < 2 ^ 28
  plain : f.flags.getLsbD 3 = false → descWord k f 5 / 2 ^ 16 % 2 ^ 12 = 0
  remote : f.flags.getLsbD 3 = true → f.flags.getLsbD 1 = false ∧ f.flags.getLsbD 2 = false ∧ (s.getCtx k.ctx).gang = true ∧
    descWord k f 5 / 2 ^ 16 % 2 ^ 12 < (s.getCtx k.ctx).gangSize
  table : mode ≠ 0 → descWord k f 7 % 4 = 0 ∧ descWord k f 7 + 4 * (descWord k f 5 % 65536) ≤ 256 * (s.getBlock k.block).hdr.scratch
  inside : ∀ r ∈ copyRows mode f k s,
    (0 ≤ r.1 ∧ r.1 + descWord k f 4 ≤ (if f.flags.getLsbD 0 then ((256 * (s.getBlock k.block).hdr.scratch : Nat) : Int) else 2 ^ 56)) ∧
    (0 ≤ r.2 ∧ r.2 + descWord k f 4 ≤ (if f.flags.getLsbD 1 then ((256 * (s.getBlock k.block).hdr.scratch : Nat) : Int) else 2 ^ 56))
  arrival : f.flags.getLsbD 2 = true → f.flags.getLsbD 1 = true ∧
    ∀ l ∈ k.lanes, (k.rd s f.b l).toNat % 8 = 0 ∧ (k.rd s f.b l).toNat + 8 ≤ 256 * (s.getBlock k.block).hdr.scratch ∧ ∀ l' ∈ k.lanes, k.rd s f.b l = k.rd s f.b l'

/-- The instruction and mode of a copy. -/
def Sys2Proof.copyInstr : Nat → XForm → Instr
  | 0, f => .cpy f
  | 1, f => .gath f
  | _, f => .scat f

/-- R220 to R222, R228 to R230: a copy with room is accepted: every executing lane takes its token, a split's F
register too, and, where it has bytes to move, its operation is in the queue. -/
def Sys2Proof.CopyIssueRule : Prop :=
  ∀ (s : State) (k : SlotCtx) (mode : Nat) (f : XForm), mode ≤ 2 → AtSlot s (copyInstr mode f) k → k.ex ≠ 0 → CopyOk mode f k s →
    opRoom (enteredCtx s k) (entered s k) (f.bank.extractLsb' 8 4).toNat = true →
    ∃ t, exec (copyInstr mode f) s = .next (ended t (enteredCtx s k) (onLanes k (fun _ => [nextToken s k.ctx k.cluster]))) ∧
      (isSplit k.u = true → (t.getGroup k.gid).freg (f.bank.extractLsb' 8 4).toNat = nextToken s k.ctx k.cluster) ∧
      (copyRows mode f k s ≠ [] → ∃ o ∈ t.mx.ops, o.id = s.nextId ∧ o.cluster = k.cluster ∧ o.ctx = k.ctx ∧ o.kind = .copy ∧
        tokenWord o.cluster o.serial = nextToken s k.ctx k.cluster ∧ o.ssp = f.flags.getLsbD 0 ∧ o.dsp = f.flags.getLsbD 1 ∧
        (o.rmt.isSome ↔ f.flags.getLsbD 3 = true) ∧ (o.aw.isSome ↔ f.flags.getLsbD 2 = true) ∧ o.pieces ≠ [] ∧ ∀ p ∈ o.pieces, p.st = .todo)

/-- R236, R239: a collective whose descriptor and member list are in order is accepted with its token; FORK with
its records in order and no fork set or program in its way starts the programs it names as one fork set. -/
def Sys2Proof.CollectiveAndForkIssueRule : Prop :=
  (∀ (s s1 s2 : State) (k : SlotCtx) (m : CollOp) (f : XForm) (a : BitVec 7) (hd b : List Byte) (rank : Nat) (ms : List Nat), AtSlot s (.coll m f) k →
    isSplit k.u = true → k.ex ≠ 0 → f.a = .scalar a → a.toNat ≤ 120 → (∀ l ∈ k.lanes, ∀ l' ∈ k.lanes, k.rd s f.b l = k.rd s f.b l') →
    let d := descWord k f
    let list := d 6 + d 7 * 2 ^ 32
    let es := if d 5 % 16 = 1 ∨ d 5 % 16 = 2 then 2 else 4
    d 1 < 2 ^ 24 → d 3 < 2 ^ 24 → d 4 < 2 ^ 24 → d 5 / 2 ^ 4 % 2 ^ 12 = 0 → d 5 < 2 ^ 28 → d 5 % 16 ≤ 4 →
    (s.getCtx k.ctx).gang = true → list % 64 = 0 → list < 2 ^ 56 →
    readVirt (entered s k) k.who k.core k.ctx list 8 .read = (s1, .inr hd) →
    readVirt s1 k.who k.core k.ctx list (8 + 2 * leAt hd 0 2) .read = (s2, .inr b) →
    memberList (s.getCtx k.ctx) b = some (rank, ms) →
    d 0 + d 1 * 2 ^ 32 + ms.length * d 4 * es ≤ 2 ^ 56 → d 2 + d 3 * 2 ^ 32 + ms.length * d 4 * es ≤ 2 ^ 56 → d 5 / 2 ^ 16 < ms.length →
    opRoom (enteredCtx s k) s2 (f.bank.extractLsb' 8 4).toNat = true →
    ∃ t, exec (.coll m f) s = .next (ended t (enteredCtx s k) (onLanes k (fun _ => [nextToken s2 k.ctx k.cluster])))) ∧
  (∀ (s : State) (k : SlotCtx) (f : XForm) (i j : BitVec 7), AtSlot s (.fork f) k → isSplit k.u = true → k.ex ≠ 0 → f.a = .const i → f.b = .const j →
    s.forkOf k.gid = none → k.g.queueOf k.sp.mask = [] →
    (∀ n, tokenStatus s k.ctx (k.g.freg n) ≠ 1) →
    exec (.fork f) s = .next (ended (entered s k) (enteredCtx s k) [])) ∧
  (∀ (s s1 s2 : State) (k : SlotCtx) (f : XForm) (r : ProgRec) (j : BitVec 7), AtSlot s (.fork f) k → isSplit k.u = true → k.ex ≠ 0 → f.b = .const j →
    readRec (enteredCtx s k) f.a (entered s k) = (s1, .inr (some r)) → k.rd64 s f.a 0 % 64 = 0 → k.rd64 s f.a 0 < 2 ^ 56 → r.ok true = true →
    s.forkOf k.gid = none → s.prog? k.cluster true = none → k.g.queueOf k.sp.mask = [] → (∀ n, tokenStatus s k.ctx (k.g.freg n) ≠ 1) →
    loadStore (enteredCtx s k) true r s1 = (s2, none) →
    ∃ t p fs, exec (.fork f) s = .next (ended t (enteredCtx s k) []) ∧ t.prog? k.cluster true = some p ∧ p.ctx = k.ctx ∧ p.gid = k.gid ∧
      p.off = (r.entry : Int) ∧ p.live = true ∧ p.codeBase = r.codeBase ∧ p.regs.get 0 0 = BitVec.ofNat 32 r.args ∧
      p.regs.get 1 0 = BitVec.ofNat 32 (r.args / 2 ^ 32) ∧ p.fmt = k.c.fmt ∧ fs ∈ t.mx.forks ∧ fs.gid = k.gid ∧ fs.cluster = k.cluster ∧
      fs.group = true ∧ fs.seq = true ∧ fs.eng = false)

/-- Both of the rules above: CopyIssueRule, CollectiveAndForkIssueRule.
Where the rules leave a point open it states the model's reading (assumptions 27, 28 and 41). -/
def Obligations.EngineIssue : Prop := Sys2Proof.CopyIssueRule ∧ Sys2Proof.CollectiveAndForkIssueRule

/-- The token that a future instruction names: an F register, or SRCB of the lowest executing lane (R226). -/
def Sys2Proof.namedToken (f : VForm) (k : SlotCtx) (s : State) (l0 : Nat) : Word :=
  match f.a with
  | .v i => k.g.freg i.toNat
  | _ => k.rd s f.b l0

/-- R223, R226, R227: FTEST gives the status; FWAIT gives it once the operation has ended well, traps for a
faulted or cancelled one and stays at a pending one; FCANCEL cancels a pending one and gives 1, else clears the
F register. -/
def Obligations.FutureInstructions : Prop :=
  ∀ (s : State) (k : SlotCtx) (f : VForm) (l0 : Nat), isSplit k.u = true → k.lanes.head? = some l0 →
    ((∃ i, f.a = .v i) ∨ ∀ l ∈ k.lanes, k.rd s f.b l = k.rd s f.b l0) → tokCluster (namedToken f k s l0) ≤ 71 →
    let tok := namedToken f k s l0
    let st := tokenStatus s k.ctx tok
    let seen := if 2 ≤ st then observe (entered s k) k.ctx k.gid k.entry tok else entered s k
    (AtSlot s (.ftest f) k → exec (.ftest f) s = .next (ended seen (enteredCtx s k) (onLanes k (fun _ => [BitVec.ofNat 32 st])))) ∧
    (AtSlot s (.fwait f) k → st = 0 ∨ st = 2 ∨ st = 5 →
      exec (.fwait f) s = .next (ended seen (enteredCtx s k) (onLanes k (fun _ => [BitVec.ofNat 32 st])))) ∧
    (AtSlot s (.fwait f) k → st = 1 → exec (.fwait f) s = .next (entered s k)) ∧
    (AtSlot s (.fwait f) k → st = 4 → ∃ c, exec (.fwait f) s = .next (trapAt (entered s k) (enteredCtx s k)
      ⟨0, k.lanes.map (fun l => (l, ⟨.futureCancelled, 0, 0⟩))⟩ c)) ∧
    (AtSlot s (.fwait f) k → ∀ x, s.token? k.ctx (tokCluster tok) (tokSerial tok) = some x → tok ≠ 0 → x.st = .faulted →
      ∃ c, exec (.fwait f) s = .next (trapAt (entered s k) (enteredCtx s k) ⟨0, k.lanes.map (fun l => (l, ⟨Cause.ofCode x.cause, x.addr, 0⟩))⟩ c)) ∧
    (AtSlot s (.fcancel f) k → st = 1 →
      exec (.fcancel f) s = .next (ended (cancelToken (entered s k) k.ctx tok) (enteredCtx s k) (onLanes k (fun _ => [1])))) ∧
    (AtSlot s (.fcancel f) k → st ≠ 1 → ∃ t, exec (.fcancel f) s = .next (ended t (enteredCtx s k) (onLanes k (fun _ => [BitVec.ofNat 32 st]))) ∧
      ∀ i, f.a = .v i → (t.getGroup k.gid).freg i.toNat = 0)

/-- R231 to R233: an arrival word is target [63:40], count [39:16] and generation [15:0]; AWINIT sets target and
count, AWADD adds bytes, each whole target making a generation; AWAIT passes once the generation differs from
the one it names, else it parks. -/
def Sys2Proof.ArrivalWordsRule : Prop :=
  ∀ (s : State) (k : SlotCtx) (f : VForm) (off x : Nat), isSplit k.u = true → k.ex ≠ 0 →
    (∀ l ∈ k.lanes, (k.rd s f.a l).toNat = off ∧ (k.rd s f.b l).toNat = x) → off % 8 = 0 → off + 8 ≤ 256 * (s.getBlock k.g.block).hdr.scratch →
    let w := (s.getBlock k.g.block).nat off 8
    let gen := w % 2 ^ 16
    let count := w / 2 ^ 16 % 2 ^ 24
    let target := w / 2 ^ 40
    (AtSlot s (.awinit f) k → x < 2 ^ 24 →
      ∃ t, exec (.awinit f) s = .next (ended t (enteredCtx s k) (onLanes k (fun _ => [BitVec.ofNat 32 gen]))) ∧
        (t.getBlock k.g.block).nat off 8 = x * 2 ^ 40 + gen ∧ t.mem = s.mem) ∧
    (AtSlot s (.awadd f) k → x < 2 ^ 24 →
      ∃ t, exec (.awadd f) s = .next (ended t (enteredCtx s k) (onLanes k (fun _ =>
          [BitVec.ofNat 32 (if target = 0 then gen else (gen + (count + x) / target) % 2 ^ 16)]))) ∧
        (t.getBlock k.g.block).nat off 8 = (if target = 0 then min (count + x) 0xFFFFFF * 2 ^ 16 + gen
          else target * 2 ^ 40 + (count + x) % target * 2 ^ 16 + (gen + (count + x) / target) % 2 ^ 16)) ∧
    (AtSlot s (.await f) k → k.park = none → gen ≠ x % 2 ^ 16 →
      exec (.await f) s = .next (ended (entered s k) (enteredCtx s k) (onLanes k (fun _ => [BitVec.ofNat 32 gen])))) ∧
    (AtSlot s (.await f) k → k.park = none → gen = x % 2 ^ 16 →
      exec (.await f) s = .next (parkedAt (entered s k) (enteredCtx s k) (.await off gen)))

/-- R237: without a fork set RDV passes; the last arrival of a group whose programs have arrived or left
advances the rendezvous and acquires. -/
def Sys2Proof.RendezvousRule : Prop :=
  ∀ (s : State) (k : SlotCtx) (f : VForm) (n : Nat), AtSlot s (.rdv f) k → isSplit k.u = true → k.park = none → k.ex ≠ 0 →
    (∀ l ∈ k.lanes, (k.rd s f.a l).toNat = n) → n ≤ 7 →
    (s.forkOf k.gid = none → exec (.rdv f) s = .next (ended (entered s k) (enteredCtx s k) [])) ∧
    (∀ fs, s.forkOf k.gid = some fs → (∀ x ∈ s.mx.forks, x.id = fs.id → x = fs) → released k s 4 = true → k.g.liveLanes ≠ 0 →
      (∀ l ∈ lanesOf k.g.liveLanes, l ∈ k.lanes) → (fs.seq = true → (fs.rdvs.get n default).units.getD 0 false = true) →
      (fs.eng = true → (fs.rdvs.get n default).units.getD 1 false = true) → (fs.rdvs.get n default).ph < 65535 →
      ∃ t, exec (.rdv f) s = .next (ended t (enteredCtx s k) []) ∧
        (∃ x ∈ t.mx.forks, x.id = fs.id ∧ (x.rdvs.get n default).ph = (fs.rdvs.get n default).ph + 1) ∧
        ∃ sp, (t.getGroup k.gid).split? k.entry = some sp ∧ s.now ≤ sp.acqt)

/-- Both of the rules above: ArrivalWordsRule, RendezvousRule. -/
def Obligations.ArrivalAndRendezvous : Prop := Sys2Proof.ArrivalWordsRule ∧ Sys2Proof.RendezvousRule

/-- R208, R209, R221, R230: an operation's piece is read from scratchpad or from its homes, part by part; it
commits at its destination's home or lands in scratchpad; an operation with nothing left ends DONE, one with an
ECC error ends FAULTED, and what it owned is free.
Where the rules leave a point open it states the model's reading (assumptions 9 and 27). -/
def Obligations.EngineEvents : Prop :=
  (∀ (s : State) (r : OpRef) (o : EOp) (n : Nat) (pc : Piece) (p : Part), s.opOf r = some o → mayStart s o = true → o.stopped = false → o.kind = .copy →
    o.pieces[n]? = some pc → pc.st = .todo → nextPart pc.parts pc.data.length = some p → o.ssp = true →
    ∃ t, exec (.engineSourceRead r n) s = .next t ∧ t.mem = s.mem ∧
      ∃ o' ∈ t.mx.ops, o'.id = o.id ∧ o'.started = true ∧
        ∃ pc', o'.pieces[n]? = some pc' ∧ pc'.data = pc.data ++ bytesAt p.dst ((s.getBlock o.block).bytes p.src p.n)) ∧
  (∀ (s s1 : State) (r : OpRef) (o : EOp) (n : Nat) (pc : Piece) (p : Part) (pa ip : Nat), s.opOf r = some o → mayStart s o = true → o.stopped = false →
    o.kind = .copy → o.pieces[n]? = some pc → pc.st = .todo → nextPart pc.parts pc.data.length = some p → o.ssp = false →
    opXlate (s.updOp o.id (fun o => { o with started := true })) o p.src .read = (s1, .ok pa ip) → s1.vis.clearBefore o.id (pa / 64) = true →
    ∃ t, exec (.engineSourceRead r n) s = .next t ∧ t.mem = s1.mem ∧
      ∃ o' ∈ t.mx.ops, o'.id = o.id ∧ o'.started = true ∧
        ∃ pc', o'.pieces[n]? = some pc' ∧ pc'.data = pc.data ++ bytesAt p.dst (s1.rdBytes pa p.n)) ∧
  (∀ (s s1 : State) (r : OpRef) (o : EOp) (n : Nat) (pc : Piece) (pa ip : Nat), s.opOf r = some o → o.stopped = false → o.kind = .copy → o.rmt = none →
    o.dsp = false → o.pieces[n]? = some pc → pc.st = .read →
    let base := (pc.parts.headD ⟨0, 0, 0⟩).dst / 64 * 64
    let d := pc.data.map (fun e => (pa + (e.1 - base), e.2))
    opXlate s o base .write = (s1, .ok pa ip) → s1.vis.clearBefore o.id (pa / 64) = true →
    (markDirty { s1 with mem := memWrite s1.mem d } o.ctx ip).2 = false →
    ∃ t, exec (.engineSectorCommit r n) s = .next t ∧ t.mem = memWrite s1.mem d ∧
      t.vis.commits = ⟨pa / 64, s1.now, s1.gwctOf (pa / 64)⟩ :: s1.vis.commits ∧ (∀ w ∈ t.vis.owned, ¬ (w.op = o.id ∧ w.sector = pa / 64)) ∧
      ∃ o' ∈ t.mx.ops, o'.id = o.id ∧ o'.gwct = max o.gwct (s1.gwctOf (pa / 64)) ∧ ∃ pc', o'.pieces[n]? = some pc' ∧ pc'.st = .done) ∧
  (∀ (s : State) (r : OpRef) (o : EOp) (n : Nat) (pc : Piece) (b : Block), s.opOf r = some o → o.stopped = false → o.dsp = true → o.aw = none →
    o.pieces[n]? = some pc → pc.st = .read → s.block? o.block = some b →
    ∃ t, exec (.engineScratchLand r n) s = .next t ∧ t.mem = s.mem ∧
      (∀ a x, pc.data.getLast? = some (a, x) → (t.getBlock o.block).byte a = x) ∧
      (∀ a, a ∉ pc.data.map (fun e => e.1) → (t.getBlock o.block).byte a = b.byte a) ∧
      ∃ o' ∈ t.mx.ops, o'.id = o.id ∧ ∃ pc', o'.pieces[n]? = some pc' ∧ pc'.st = .done) ∧
  (∀ (s : State) (r : OpRef) (o : EOp), s.opOf r = some o → o.outstanding = 0 → (∀ p ∈ o.pieces, p.st = .done) → o.kind = .copy →
    ∃ t, exec (.engineOpDone r) s = .next t ∧ t.mem = s.mem ∧ (∀ x ∈ t.mx.ops, x.id ≠ o.id) ∧ (∀ w ∈ t.vis.owned, w.op ≠ o.id) ∧
      ∀ tk ∈ t.mx.tokens, ¬ (tk.ctx = o.ctx ∧ tk.cluster = o.cluster ∧ tk.serial = o.serial ∧ tk.st = .pending)) ∧
  (∀ (s : State) (r : OpRef) (o : EOp) (a : Nat), s.opOf r = some o →
    ∃ t, exec (.engineOpFault r (.ecc a)) s = .next t ∧ t.mem = s.mem ∧ (∀ x ∈ t.mx.ops, x.id ≠ o.id) ∧ (∀ w ∈ t.vis.owned, w.op ≠ o.id) ∧
      ∀ tk ∈ t.mx.tokens, ¬ (tk.ctx = o.ctx ∧ tk.cluster = o.cluster ∧ tk.serial = o.serial ∧ tk.st = .pending))

/-! ## Control flow (R76 to R111) -/

/-- R88, R100 to R104, R108: a transfer is recorded at its slot on the executing lanes, an indirect one with each
lane's operand, and acts when its clause ends. -/
def Obligations.TransfersAreRecorded : Prop :=
  (∀ (s : State) (k : SlotCtx) (i : Instr), AtSlot s i k →
    (match i with | .br _ _ | .bra _ | .call _ | .ret _ | .exit _ => True | _ => False) →
    exec i s = .next (transferred (entered s k) (enteredCtx s k) [])) ∧
  (∀ (s : State) (k : SlotCtx) (i : Instr) (f : BForm), AtSlot s i k → i = .jmpi f ∨ i = .calli f ∨ i = .plbr f →
    ∃ v : SMap Word, (∀ l ∈ k.lanes, v.get l 0 = k.rd s f.indir l) ∧ (∀ l, l ∉ k.lanes → v.get l 0 = 0) ∧
      exec i s = .next (transferred (entered s k) (enteredCtx s k) v))

/-- R78, R101: at the end of its clause a BR whose lanes agree moves the whole split; a uniform one whose lanes
differ traps UNIFORMITY; otherwise the split divides: the fall-through lanes keep the entry, or the taken ones with
HINT 01, and the others take the lowest free entry as the youngest split. -/
def Sys2Proof.BranchesDivideRule : Prop :=
  ∀ (s : State) (gid entry : Nat) (g : Group) (sp : Split) (c : Clause) (m : BrKind) (f : BForm), s.group? gid = some g → g.split? entry = some sp →
    entry < g.splits.length → c.xfer = some (.br m f) → c.xT &&& ~~~sp.mask = 0 → sp.mask ≠ 0 →
    let target := (c.off : Int) + f.target.toInt
    let moved (off : Int) := s.updGroup gid (fun g => g.setSplit entry (some { sp with
      fmt := c.pend.getD sp.fmt, offset := off, st := .ready, clause := none, joined := false }))
    (c.xT = 0 → clauseEnd s gid entry c = .ok (moved ((c.off + 8 * (c.count + 2) : Nat) : Int))) ∧
    (c.xT = sp.mask → clauseEnd s gid entry c = .ok (moved target)) ∧
    (m = .uniform → c.xT ≠ 0 → c.xT ≠ sp.mask → clauseEnd s gid entry c = .trap ⟨0, (lanesOf sp.mask).map (fun l => (l, ⟨.uniformity, 0, 0⟩))⟩ s) ∧
    (m ≠ .uniform → c.xT ≠ 0 → c.xT ≠ sp.mask → ∀ e < 4, e < g.splits.length → g.split? e = none → (∀ e' < e, g.split? e' ≠ none) →
      let keep := if f.hint = 1 then (c.xT, target) else (sp.mask &&& ~~~c.xT, ((c.off + 8 * (c.count + 2) : Nat) : Int))
      let young := if f.hint = 1 then (sp.mask &&& ~~~c.xT, ((c.off + 8 * (c.count + 2) : Nat) : Int)) else (c.xT, target)
      ∃ t g' a b, clauseEnd s gid entry c = .ok t ∧ t.mem = s.mem ∧ t.group? gid = some g' ∧ g'.split? entry = some a ∧ g'.split? e = some b ∧
        (a.mask, a.offset) = keep ∧ (b.mask, b.offset) = young ∧ a.age = sp.age ∧ b.age = g.births ∧ a.st = .ready ∧ b.st = .ready ∧
        a.fmt = c.pend.getD sp.fmt ∧ b.fmt = c.pend.getD sp.fmt ∧ a.sfmt = c.pend.getD sp.fmt ∧ b.sfmt = c.pend.getD sp.fmt)

/-- R102: a CALL that all lanes take queues each lane's return offset at its call level, deepens it by one and
moves the split; RET moves the split to the recorded offset and takes the level back. -/
def Sys2Proof.CallsAndReturnsRule : Prop :=
  (∀ (s s1 : State) (gid entry : Nat) (g : Group) (sp : Split) (c : Clause) (f : BForm) (es : List QEntry), s.group? gid = some g →
    g.split? entry = some sp → entry < g.splits.length → c.xfer = some (.call f) → c.xT = sp.mask → sp.mask ≠ 0 →
    (∀ l ∈ lanesOf sp.mask, g.depth.get l 0 < 1023 ∧ g.bb + (g.depth.get l 0 + 1) * 4 * g.hdr.width + g.burst ≤ g.spillLim) →
    callEntries g entry (c.off + 8 * (c.count + 2)) (lanesOf sp.mask) s = (s1, .inr es) → s1.group? gid = some g →
    (∀ e ∈ es, e.data = bytesAt e.pa (bytesOfNat 4 (c.off + 8 * (c.count + 2))) ∧ e.va = g.levelAt (g.depth.get e.lane 0) e.lane) ∧
    ∃ t g' sp', clauseEnd s gid entry c = .ok t ∧ t.group? gid = some g' ∧ g'.queue = g.queue ++ es ∧
      (∀ l ∈ lanesOf sp.mask, g'.depth.get l 0 = g.depth.get l 0 + 1) ∧ (∀ l, l ∉ lanesOf sp.mask → g'.depth.get l 0 = g.depth.get l 0) ∧
      g'.split? entry = some sp' ∧ sp'.mask = sp.mask ∧ sp'.offset = (c.off : Int) + f.target.toInt) ∧
  (∀ (s s1 s2 : State) (gid entry : Nat) (g : Group) (sp : Split) (c : Clause) (d : Nat) (ts : List (Nat × Nat)), s.group? gid = some g →
    g.split? entry = some sp → entry < g.splits.length → (∃ x, c.xfer = some (.ret x)) → c.xT = sp.mask → sp.mask ≠ 0 →
    readLevels g entry (sp.withPend c) (lanesOf sp.mask) s = (s1, some ([], ts)) → ts = (lanesOf sp.mask).map (fun l => (l, d)) →
    checkTargets g entry (sp.withPend c) false ts s1 = (s2, some ([], ts)) → s2.group? gid = some g →
    ∃ t g' sp', clauseEnd s gid entry c = .ok t ∧ t.group? gid = some g' ∧ g'.queue = g.queue ∧
      (∀ l ∈ lanesOf sp.mask, g'.depth.get l 0 = g.depth.get l 0 - 1) ∧
      g'.split? entry = some sp' ∧ sp'.mask = sp.mask ∧ sp'.offset = (d : Int))

/-- R95, R108: EXIT ends its executing lanes at the end of the clause: they count as exited and leave every K
register. -/
def Sys2Proof.ExitEndsLanesRule : Prop :=
  ∀ (s : State) (gid entry : Nat) (g : Group) (sp : Split) (c : Clause) (f : VForm), s.group? gid = some g → g.split? entry = some sp →
    c.xfer = some (.exit f) → c.xT ≠ 0 →
    ∃ t g', clauseEnd s gid entry c = .ok t ∧ t.group? gid = some g' ∧ g'.exited = g.exited ||| c.xT ∧ (∀ n, g'.kreg n &&& c.xT = 0) ∧ g'.win = g.win ∧
      g'.sreg = g.sreg

/-- All of the rules above: BranchesDivideRule, CallsAndReturnsRule, ExitEndsLanesRule.
Where the rules leave a point open it states the model's reading (assumptions 14, 17 and 18). -/
def Obligations.ClauseEnds : Prop := Sys2Proof.BranchesDivideRule ∧ Sys2Proof.CallsAndReturnsRule ∧ Sys2Proof.ExitEndsLanesRule

/-- R92, R106, R107, R109, R111: the other control instructions. -/
def Obligations.ControlSlots : Prop :=
  (∀ (s : State) (k : SlotCtx) (i : Instr) (f : BForm), i = .join f ∨ i = .joinw f → AtSlot s i k →
    exec i s = .next (ended (entered s k) (enteredCtx s k) [])) ∧
  (∀ (s : State) (k : SlotCtx) (f : VForm), AtSlot s (.nop f) k → exec (.nop f) s = .next (ended (entered s k) (enteredCtx s k) [])) ∧
  (∀ (s : State) (k : SlotCtx) (f : BForm), AtSlot s (.kset f) k → isSplit k.u = true →
    ∃ t, exec (.kset f) s = .next (ended t (enteredCtx s k) []) ∧ t.mem = s.mem ∧
      (t.getGroup k.gid).kreg f.kidx.toNat = (if k.c.first then k.ex else k.g.kreg f.kidx.toNat ||| k.ex) ∧
      ∀ n, n ≠ f.kidx.toNat → (t.getGroup k.gid).kreg n = k.g.kreg n) ∧
  (∀ (s : State) (k : SlotCtx) (f : VForm), AtSlot s (.plset f) k → isSplit k.u = true →
    (∀ l ∈ k.lanes, (k.rd s f.a l).toNat ≤ 3 ∧ k.g.hdr.planes.getLsbD (k.rd s f.a l).toNat = true) →
    ∃ t, exec (.plset f) s = .next (ended t (enteredCtx s k) (onLanes k (fun l => [BitVec.ofNat 32 (k.g.plane.get l 0)]))) ∧ t.mem = s.mem ∧
      (∀ l ∈ k.lanes, (t.getGroup k.gid).plane.get l 0 = (k.rd s f.a l).toNat) ∧
      ∀ l, l ∉ k.lanes → (t.getGroup k.gid).plane.get l 0 = k.g.plane.get l 0) ∧
  (∀ (s : State) (k : SlotCtx) (f : VForm), AtSlot s (.plset f) k → isSplit k.u = true →
    let bad (l : Nat) : Option LaneFault :=
      if 3 < (k.rd s f.a l).toNat then some ⟨.bounds, 0, 0⟩ else if k.g.hdr.planes.getLsbD (k.rd s f.a l).toNat then none else some ⟨.planeAbsent, 0, 0⟩
    (∃ l ∈ k.lanes, (bad l).isSome) →
    ∃ c, exec (.plset f) s = .next (trapAt (entered s k) (enteredCtx s k) ⟨0, k.lanes.filterMap (fun l => (bad l).map (fun x => (l, x)))⟩ c)) ∧
  (∀ (s : State) (k : SlotCtx) (f : VForm), AtSlot s (.yield f) k → isSplit k.u = true → k.ex ≠ 0 →
    exec (.yield f) s = .next (ended (updClause (entered s k) k.gid k.entry (fun c => { c with yielded := true })) (enteredCtx s k) [])) ∧
  (∀ (s : State) (k : SlotCtx) (f : VForm) (x : Word), AtSlot s (.wdog f) k → isSplit k.u = true → k.ex ≠ 0 → (∀ l ∈ k.lanes, k.rd s f.a l = x) →
    exec (.wdog f) s = .next (ended (if x = 0 then entered s k else (entered s k).updGroup k.gid (fun g => { g with wdog := 0 })) (enteredCtx s k)
      (onLanes k (fun _ => [BitVec.ofNat 32 (min k.g.wdog 0xFFFFFFFF)])))) ∧
  (∀ (s : State) (k : SlotCtx) (f : VForm), AtSlot s (.wid f) k → isSplit k.u = true →
    (f.dst.sup = true ∨ (f.dst.kind = false ∧ f.dst.idx.toNat + 2 ≤ k.g.vregs) ∨ ∀ l ∈ k.lanes, (k.rd s f.a l).toNat ≠ 6) →
    exec (.wid f) s = .next (ended (entered s k) (enteredCtx s k) (onLanes k (fun l =>
      let n := (k.rd s f.a l).toNat
      let w := (k.g.wid.get l 0).toNat
      if n ≤ 5 then [BitVec.ofNat 32 (w / 2 ^ ((k.g.hdr.widths.take n).sum) % 2 ^ (k.g.hdr.widths.getD n 0))]
      else if n = 6 then [BitVec.ofNat 32 w, BitVec.ofNat 32 (w / 2 ^ 32)] else [0]))))

/-- R51, R76, R83, R98: a split at a header that passes its checks and waits for nothing enters the clause at slot
0 with the FMT in force; a holder whose CX.FAIR time is over passes issue on; a watchdog that is due stops the
group's splits and traps its oldest.
Where the rules leave a point open it states the model's reading (assumptions 9, 10 and 13). -/
def Obligations.ClauseIssueAndTimers : Prop :=
  (∀ (s s1 s2 : State) (gid e : Nat) (g : Group) (sp : Split) (h w : DWord), s.cur = some (.split gid e) → s.group? gid = some g →
    g.split? e = some sp → e < g.splits.length → sp.clause = none → 0 ≤ sp.offset → sp.offset % 8 = 0 → sp.offset < (g.hdr.codeSize : Int) →
    sp.handler = none → (∀ l ∈ lanesOf sp.mask, g.plane.get l 0 = 0) → sp.mask ≠ 0 → sp.vect = none → sp.joined = false →
    fetchCode s g e 0 sp.offset.toNat = (s1, .inr h) → s1.group? gid = some g → hdrChecks g sp.offset.toNat h = none → hdrClass h ≠ .system →
    fetchCode s1 g e 0 (sp.offset.toNat + 8) = (s2, .inr w) → s2.group? gid = some g → joinOf w (hdrClass h) = none →
    hdrWait h = 0 → loadsOk g sp.mask h = true →
    ∃ t g' sp' c, exec .clauseIssue s = .next t ∧ t.group? gid = some g' ∧ g'.split? e = some sp' ∧ sp'.st = .mid ∧ sp'.clause = some c ∧
      c.hdr = h ∧ c.off = sp.offset.toNat ∧ c.slot = 0 ∧ c.atHdr = false ∧ c.sub = sp.mask ∧ c.fmt = sp.fmt ∧ c.pend = none ∧ c.xfer = none ∧
      g'.issues = g.issues + 1) ∧
  (∀ (s : State) (gid n : Nat) (g : Group), s.group? gid = some g → fairLimit s g.ctx = some n → n ≤ g.held →
    exec (.fairHoldExpire gid) s = .next (s.updGroup gid (fun g => { g with pass := true }))) ∧
  (∀ (s : State) (gid : Nat) (g : Group), s.group? gid = some g → g.resident = true → g.halted = false → g.live ≠ [] →
    (s.getCtx g.ctx).wdog ≠ 0 → (s.getCtx g.ctx).wdog.toNat ≤ g.wdog →
    exec (.watchdog gid) s = .next (settleAll (watchdogTrap s gid) gid)) ∧
  (∀ (s s1 : State) (gid e : Nat) (g : Group) (sp : Split) (w : DWord), s.group? gid = some g → g.live = [(e, sp)] → g.splits.length = 4 → sp.clause = none →
    sp.handler = none → (∀ l ∈ lanesOf sp.mask, g.plane.get l 0 = 0) → sp.mask ≠ 0 → (∀ x ∈ s.groups, x.gid = gid → x = g) →
    fetchCode s g e 0 sp.offset.toNat = (s1, .inr w) →
    watchdogTrap s gid = takeTrap s1 gid e true { headerClause g sp 0 with hdr := w } w ⟨0, (lanesOf sp.mask).map (fun l => (l, ⟨.watchdog, 0, 0⟩))⟩ true id 0)

/-! ## Barriers, feeds, seedbeds and launches (R56 to R73) -/

/-- R62, R63: a barrier's phase advances when the groups that have arrived reach the expected count; BAR.arrive
arrives, BAR.wait passes where no lane pends and parks otherwise, BAR.sync does both. -/
def Obligations.Barriers : Prop :=
  (∀ (s : State) (blk n e : Nat) (b : Block), s.block? blk = some b → (b.bars.get n default).expected = some e →
    let bar := b.bars.get n default
    let gs := s.groups.filter (fun g => g.block == blk)
    let live := gs.filter (fun g => g.liveLanes != 0)
    let arrived := live.filter (fun g => (lanesOf g.liveLanes).all (fun l => bar.marks.get (g.gidx * 128 + l) 0 == (bar.ph + 1) % 65536))
    (arrived.length < (if e = 0 then live.length else e) → barTest s blk n = s) ∧
    ((if e = 0 then live.length else e) ≤ arrived.length →
      ((barTest s blk n).getBlock blk).bars.get n default = { bar with ph := (bar.ph + 1) % 65536, expected := none })) ∧
  (∀ (s : State) (k : SlotCtx) (f : VForm) (b n : Nat), isSplit k.u = true → k.ex ≠ 0 → k.park = none →
    (∀ l ∈ k.lanes, (k.rd s f.a l).toNat = b) → b ≤ 15 →
    (AtSlot s (.barArrive f) k → (∀ l ∈ k.lanes, (k.rd s f.b l).toNat = n) → n ≤ 32 → released k s 1 = true →
      exec (.barArrive f) s = .next (ended (barArrive (enteredCtx s k) (entered s k) b n) (enteredCtx s k) [])) ∧
    (AtSlot s (.barWait f) k → (∀ l ∈ k.lanes, barPending k.g ((s.getBlock k.g.block).bars.get b default) l = false) → k.g.loadsOf k.sp.mask = [] →
      exec (.barWait f) s = .next (ended (entered s k) (enteredCtx s k) [])) ∧
    (AtSlot s (.barWait f) k → (∃ l ∈ k.lanes, l ∈ lanesOf k.g.liveLanes ∧ barPending k.g ((s.getBlock k.g.block).bars.get b default) l = true) →
      exec (.barWait f) s = .next (parkedAt (entered s k) (enteredCtx s k) (.bar b))) ∧
    (AtSlot s (.barSync f) k → (∀ l ∈ k.lanes, (k.rd s f.b l).toNat = n) → n ≤ 32 → released k s 1 = true →
      let t := barArrive (enteredCtx s k) (entered s k) b n
      exec (.barSync f) s = .next (if barPends (enteredCtx s k) t b then parkedAt t (enteredCtx s k) (.bar b) else ended t (enteredCtx s k) [])))

/-- R68 to R70, R73: FEEDPUSH appends a record of 16 scalars and gives 1, or 0 at a full feed, or 2 without one;
FEEDPOP gives status and record of the head in its scalars, 0 at an empty feed, 2 without one, or parks; SLEEP
gives 0 for no time, else parks until the latest time its lanes name. -/
def Obligations.FeedsAndSleep : Prop :=
  (∀ (s : State) (k : SlotCtx) (f : VForm) (a : BitVec 7) (x : Word), AtSlot s (.feedpush f) k → isSplit k.u = true → k.ex ≠ 0 → f.a = .scalar a →
    a.toNat ≤ 112 → (∀ l ∈ k.lanes, k.rd s f.b l = x) → x.toNat < 288 ∨ x = 0xFFFFFFFF →
    let core := if x = 0xFFFFFFFF then k.core else x.toNat
    (s.feed? k.ctx core = none → exec (.feedpush f) s = .next (ended (entered s k) (enteredCtx s k) (onLanes k (fun _ => [2])))) ∧
    (∀ q, s.feed? k.ctx core = some q → q.cap ≤ q.recs.length →
      exec (.feedpush f) s = .next (ended (entered s k) (enteredCtx s k) (onLanes k (fun _ => [0])))) ∧
    (∀ q, s.feed? k.ctx core = some q → q.recs.length < q.cap → poppers s k.ctx core = [] →
      ∃ t, exec (.feedpush f) s = .next (ended t (enteredCtx s k) (onLanes k (fun _ => [1]))) ∧ t.mem = s.mem ∧
        ∃ q', t.feed? k.ctx core = some q' ∧ q'.recs = q.recs ++ [(List.range 16).map (fun j => k.g.sregOf (a.toNat + j))])) ∧
  (∀ (s : State) (k : SlotCtx) (m : PopKind) (f : VForm), AtSlot s (.feedpop m f) k → isSplit k.u = true → k.ex ≠ 0 → k.park = none →
    f.dst.sup = false → f.dst.idx.toNat ≤ 111 →
    let pop (t : State) (st : Word) (rec : List Word) : Prop :=
      ∃ u, exec (.feedpop m f) s = .next (ended u (enteredCtx s k) (onLanes k (fun _ => [st, rec.getD 0 0, rec.getD 1 0, rec.getD 2 0]))) ∧
        u.feeds = t.feeds ∧ u.mem = s.mem ∧ (u.getGroup k.gid).sregOf f.dst.idx.toNat = st ∧
        (∀ j < 16, (u.getGroup k.gid).sregOf (f.dst.idx.toNat + 1 + j) = rec.getD j 0) ∧
        ∀ j, j < f.dst.idx.toNat ∨ f.dst.idx.toNat + 16 < j → (u.getGroup k.gid).sregOf j = k.g.sregOf j
    (s.feed? k.ctx k.core = none → pop s 2 []) ∧
    (∀ q r rs, s.feed? k.ctx k.core = some q → q.recs = r :: rs → pop (s.updFeed k.ctx k.core (fun q => { q with recs := rs })) 1 r) ∧
    (∀ q, s.feed? k.ctx k.core = some q → q.recs = [] → m = .nonBlocking → pop s 0 []) ∧
    (∀ q, s.feed? k.ctx k.core = some q → q.recs = [] → m = .blocking →
      exec (.feedpop m f) s = .next (parkedAt (entered s k) (enteredCtx s k) .feedpop))) ∧
  (∀ (s : State) (k : SlotCtx) (f : VForm) (d : Nat), AtSlot s (.sleep f) k → isSplit k.u = true → k.ex ≠ 0 → k.park = none →
    (∀ l ∈ k.lanes, (k.rd s f.a l).toNat ≤ d) → (∃ l ∈ k.lanes, (k.rd s f.a l).toNat = d) →
    exec (.sleep f) s = .next (if d = 0 then ended (entered s k) (enteredCtx s k) (onLanes k (fun _ => [0]))
      else parkedAt (entered s k) (enteredCtx s k) (.sleep (s.now + d)))) ∧
  (∀ (s : State) (k : SlotCtx) (f : VForm) (p : Park) (r : Nat), AtSlot s (.sleep f) k → k.park = some p → p.wake = some r →
    exec (.sleep f) s = .next (ended (entered s k) (enteredCtx s k) (onLanes k (fun _ => [BitVec.ofNat 32 r])))) ∧
  (∀ (s : State) (r : SplitRef) (g : Group) (sp : Split) (p : Park) (till : Nat), s.group? r.gid = some g → g.split? r.entry = some sp →
    sp.st = .parked p → p.kind = .sleep till → p.wake = none → till ≤ s.now →
    ∃ t g', exec (.sleepTimeout r) s = .next t ∧ t = { s with groups := t.groups } ∧ t.group? r.gid = some g' ∧
      g' = g.setSplit r.entry (some { sp with st := .parked { p with wake := some 0 } }))

/-- R65, R66, R71: SPAWN of executing lanes with room adds their entries to the key of their header; a lone entry
opens the key; a key whose timer is over forms its group. LAUNCH.0 and LAUNCH.1 hand their launch over.
Where the rules leave a point open it states the model's reading (assumption 24). -/
def Obligations.SpawnAndLaunch : Prop :=
  (∀ (s s1 : State) (k : SlotCtx) (m : SpawnKind) (f : XForm) (l0 : Nat) (b : List Byte), AtSlot s (.spawn m f) k → k.lanes.head? = some l0 →
    k.rd64 s f.a l0 % 128 = 0 → k.rd64 s f.a l0 < 2 ^ 56 → readVirt (entered s k) k.who k.core k.ctx (k.rd64 s f.a l0) 128 .read = (s1, .inr b) →
    let key := (LaunchHdr.ofBytes b).codeBase + (LaunchHdr.ofBytes b).entry
    (seedKey? s1 k.core k.ctx key).isSome ∨ (seedHdrOk b = true ∧ (s1.seeds.filter (fun x => x.core == k.core && x.ctx == k.ctx)).length < 64) →
    seedUsed s1 k.core (fun c => c == k.ctx) + k.lanes.length ≤ 2048 → seedUsed s1 k.core (fun _ => true) + k.lanes.length ≤ 4096 →
    ∃ t, exec (.spawn m f) s = .next (ended t (enteredCtx s k) []) ∧
      (k.lanes = [l0] → seedKey? s1 k.core k.ctx key = none → (LaunchHdr.ofBytes b).sbtimer ≠ 0 →
        ∃ x ∈ t.seeds, x.core = k.core ∧ x.ctx = k.ctx ∧ x.key = key ∧ x.start = some s1.now ∧
          x.entries = [⟨BitVec.ofNat 64 (k.rd64 s f.b l0), match m with | .plain => [0, 0, 0, 0] | .payload => k.rdWords s f.c l0 4⟩])) ∧
  (∀ (s : State) (core ctx key : Nat) (x : SeedKey) (t0 : Nat), seedKey? s core ctx key = some x → x.start = some t0 → t0 + x.hdr.sbtimer ≤ s.now →
    ∃ t, exec (.seedbedTimer core ctx key) s = .next t ∧ t.mem = s.mem ∧
      t.formed = s.formed ++ [⟨x.core, x.ctx, x.hdr, x.hdrAddr, x.entries, s.now + 40⟩] ∧ seedKey? t x.core x.ctx x.key = none) ∧
  (∀ (s : State) (k : SlotCtx) (f : XForm), AtSlot s (.launch f) k → k.ex ≠ 0 → k.rd64 s f.a 0 % 128 = 0 → launchCount s k.ctx < 1024 → released k s 5 = true →
    exec (.launch f) s = .next (ended (handLaunch (entered s k) k.ctx (k.rd64 s f.a 0) (k.rd64 s f.b 0) .instr 180) (enteredCtx s k) [])) ∧
  (∀ (s : State) (k : SlotCtx) (f : XForm), AtSlot s (.launchNode f) k → k.ex ≠ 0 → k.rd64 s f.a 0 % 64 = 0 → launchCount s k.ctx < 1024 → released k s 5 = true →
    ∃ t, exec (.launchNode f) s = .next (ended t (enteredCtx s k) []))

/-- R57 to R61, R95, R277: a block of a launch is admitted with the groups, work identifiers and first registers
its header says; a group with no live lane and no access goes, its block with the last one; a launch all of whose
blocks have ended writes its completion word and goes.
Where the rules leave a point open it states the model's reading (assumptions 9 and 25). -/
def Obligations.LaunchEvents : Prop :=
  (∀ (s : State) (core id : Nat) (pt : Nat) (ps : List (Nat × Pending)) (l : Launch),
    let s1 := frontEnd s
    s1.coreAdmit.get core 0 = 0 ∨ s1.coreAdmit.get core 0 + 39 ≤ s1.now →
    (∀ x ∈ s1.formed, x.core ≠ core) → s1.ctl.pendings = (pt, .launch id) :: ps →
    s1.ctl.launches.find? (fun l => l.id == id) = some l → (entryCtx s1 (.launch id)).isSome = true → entryFits s1 core (.launch id) = true →
    l.hdr.feedper = 0 → (∀ g ∈ s1.groups, g.block ≠ s1.nextId) →
    ∃ t b, exec (.blockAdmit core) s = .next t ∧ t.mem = s1.mem ∧ b ∈ t.blocks ∧ b.core = core ∧ b.launch = l.id ∧ b.idx = l.next ∧ b.placed = true ∧
      b.id = s1.nextId ∧ (t.groups.filter (fun g => g.block == b.id)).length = l.hdr.groups ∧
      ∀ g ∈ t.groups, g.block = b.id → g.core = core ∧ g.ctx = l.ctx ∧ g.hdr = l.hdr ∧ g.resident = true ∧ g.gidx < l.hdr.groups ∧
        g.sregOf 0 = BitVec.ofNat 32 l.args ∧ g.sregOf 1 = BitVec.ofNat 32 (l.args / 2 ^ 32) ∧ g.sregOf 2 = BitVec.ofNat 32 l.hdrAddr ∧
        g.sregOf 3 = BitVec.ofNat 32 (l.hdrAddr / 2 ^ 32) ∧ (∀ n ≥ 4, g.sregOf n = 0) ∧ g.win = [] ∧
        ∃ sp, g.splits = [some sp, none, none, none] ∧ sp.offset = (l.hdr.entry : Int) ∧ sp.mask = maskBelow l.hdr.width ∧ sp.fmt = l.hdr.fmtinit ∧ sp.st = .ready) ∧
  (∀ (s : State) (gid : Nat) (g : Group), s.group? gid = some g → g.liveLanes = 0 → g.queue = [] → g.loads = [] → blockBusy s g.block = false →
    ∃ t, exec (.groupRelease gid) s = .next t ∧ t.mem = s.mem ∧ t.group? gid = none ∧
      ((s.groups.filter (fun x => x.block == g.block)).length = 1 → t.block? g.block = none)) ∧
  (∀ (s s1 : State) (id : Nat) (l : Launch) (pa ip : Nat), s.ctl.launches.find? (fun l => l.id == id) = some l → l.count ≤ l.next → l.live = 0 → l.gwct ≤ s.now →
    l.hdr.doneaddr ≠ 0 → l.hdr.doneaddr % 8 = 0 → translate s (.control l.id) controlCore l.ctx l.hdr.doneaddr .write = (s1, .ok pa ip) →
    (markDirty (devWrite s1 pa (bytesOfNat 8 l.hdr.donetag)) l.ctx ip).2 = false →
    ∃ t, exec (.launchComplete id) s = .next t ∧ t.rdNat pa 8 = l.hdr.donetag % 2 ^ 64 ∧ ∀ x ∈ t.ctl.launches, x.id ≠ id)

/-! ## Matrix engine (R241 to R262) -/

/-- A requested extent, rounded up and limited (R245). -/
def Sys2Proof.extent (x u lim : Nat) : Nat := if lim ≤ (x + u - 1) / u * u then lim else (x + u - 1) / u * u

/-- The class a format code gives, and its native K (R244, R245). -/
def Sys2Proof.codeClass (c : Nat) : Nat := if c = 0 then 0 else if c = 1 then 1 else if c = 2 ∨ c = 3 then 2 else 3
def Sys2Proof.kNative (c : Nat) : Nat := if c = 2 then 32 else if c = 3 then 64 else 16

/-- R245, R248, R251, R252: SHAPE grants extents; ABALLOC gives the lowest run of free numbers within quota and
room, zeroed, or all ones; ABFREE releases banks; ABGRANT and its revocation set and clear a band of a live group
of the block; ACLR queues a clear; SFENCE empties the operand cache of the context. -/
def Sys2Proof.MatrixSetupRule : Prop :=
  (∀ (s : State) (k : SlotCtx) (f : XForm), AtSlot s (.shape f) k → k.ex ≠ 0 →
    let m := (k.rd s f.a 0).toNat
    let n := (k.rd s f.b 0).toNat
    let kk := (k.rd s f.c 0).toNat
    let c := codeClass (k.c.fmt.toNat / 2 ^ 28)
    c = codeClass (k.c.fmt.toNat / 2 ^ 24 % 16) → m ≠ 0 → n ≠ 0 → kk ≠ 0 →
    ∃ w : Word, exec (.shape f) s = .next (ended ((entered s k).updProg k.cluster true (fun p => { p with shp := w })) (enteredCtx s k) (onLanes k (fun _ => [w]))) ∧
      w.toNat % 2 ^ 9 = extent m 16 128 ∧ w.toNat / 2 ^ 9 % 2 ^ 9 = extent n 64 256 ∧ w.toNat / 2 ^ 18 % 2 ^ 7 = extent kk (kNative c) 64 ∧ w.toNat / 2 ^ 25 = c) ∧
  (∀ (s : State) (k : SlotCtx) (f : XForm) (d : BitVec 7) (n b : Nat), AtSlot s (.aballoc f) k → k.ex ≠ 0 → f.a = .scalar d → (k.rd s f.b 0).toNat = n →
    1 ≤ n → n ≤ 128 →
    let mine (i : Nat) : Prop := ∃ x ∈ s.mx.banks, x.ctx = k.ctx ∧ x.cluster = k.cluster ∧ x.placed = true ∧ x.num = i
    let run (b : Nat) : Prop := b + n ≤ 128 ∧ ∀ i < n, ¬ mine (b + i)
    let res (t : State) (w : Word) : Prop := exec (.aballoc f) s = .next (ended (t.updProg k.cluster true (fun p => { p with regs := p.regs.set 0 d.toNat w }))
      (enteredCtx s k) (onLanes k (fun _ => [w])))
    let held := (s.mx.banks.filter (fun x => x.ctx == k.ctx && x.cluster == k.cluster && x.placed)).length
    let used := (s.mx.banks.filter (fun x => x.cluster == k.cluster && x.placed)).length
    ((∀ b', ¬ run b') → res (entered s k) 0xFFFFFFFF) ∧
    (min 128 ((s.getCtx k.ctx).abquota.toNat % 256) < held + n ∨ 128 < used + n → res (entered s k) 0xFFFFFFFF) ∧
    (run b → (∀ b' < b, ¬ run b') → held + n ≤ min 128 ((s.getCtx k.ctx).abquota.toNat % 256) → used + n ≤ 128 →
      res { (entered s k) with mx := { (entered s k).mx with banks := (entered s k).mx.banks ++ (List.range n).map (fun i => ⟨k.ctx, k.cluster, b + i, [], true⟩) } }
        (BitVec.ofNat 32 b))) ∧
  (∀ (s : State) (k : SlotCtx) (f : XForm), AtSlot s (.abfree f) k → k.ex ≠ 0 → k.p.queue = [] →
    let b := (k.rd s f.a 0).toNat
    let n := (k.rd s f.b 0).toNat
    banksOk s k.ctx k.cluster b n = true →
    ∃ t, exec (.abfree f) s = .next (ended t (enteredCtx s k) []) ∧ t.mem = s.mem ∧
      (∀ x ∈ t.mx.banks, ¬ (x.ctx = k.ctx ∧ x.cluster = k.cluster ∧ b ≤ x.num ∧ x.num < b + n)) ∧
      (∀ x ∈ s.mx.banks, ¬ (x.ctx = k.ctx ∧ x.cluster = k.cluster ∧ b ≤ x.num ∧ x.num < b + n) → x ∈ t.mx.banks)) ∧
  (∀ (s : State) (k : SlotCtx) (f : XForm), AtSlot s (.abgrant f) k → k.ex ≠ 0 →
    let b := (k.rd s f.a 0).toNat
    let n := (k.rd s f.c 0).toNat
    let row := (f.bank.extractLsb' 8 4).toNat
    let h := (f.bank.extractLsb' 4 4).toNat + 1
    (k.rd s f.b 0).toNat ≤ 31 → n ≠ 0 → b + n ≤ 128 → row + h ≤ 16 → banksOk s k.ctx k.cluster b n = true →
    (boundGroup s k.p.block (k.rd s f.b 0).toNat = none → exec (.abgrant f) s = .next (ended (entered s k) (enteredCtx s k) (onLanes k (fun _ => [0])))) ∧
    (∀ g, boundGroup s k.p.block (k.rd s f.b 0).toNat = some g →
      exec (.abgrant f) s = .next (ended ((entered s k).updGroup g.gid (fun g =>
        { g with bands := g.bands.set (f.bank.extractLsb' 1 3).toNat (some ⟨b, n, row, h, f.flags.getLsbD 0⟩) })) (enteredCtx s k) (onLanes k (fun _ => [1]))))) ∧
  (∀ (s : State) (k : SlotCtx) (f : XForm), AtSlot s (.abgrantRevoke f) k → k.ex ≠ 0 → (k.rd s f.b 0).toNat ≤ 31 →
    (boundGroup s k.p.block (k.rd s f.b 0).toNat = none → exec (.abgrantRevoke f) s = .next (ended (entered s k) (enteredCtx s k) (onLanes k (fun _ => [0])))) ∧
    (∀ g, boundGroup s k.p.block (k.rd s f.b 0).toNat = some g →
      exec (.abgrantRevoke f) s = .next (ended ((entered s k).updGroup g.gid (fun g => { g with bands := g.bands.set (f.bank.extractLsb' 1 3).toNat none }))
        (enteredCtx s k) (onLanes k (fun _ => [1]))))) ∧
  (∀ (s : State) (k : SlotCtx) (f : XForm), AtSlot s (.aclr f) k → k.ex ≠ 0 → banksOk s k.ctx k.cluster (k.rd s f.a 0).toNat (k.rd s f.b 0).toNat = true →
    (k.p.queue.filter (fun o => !o.started)).length < 8 →
    ∃ o : ArrOp, o.kind = .aclr (k.rd s f.b 0).toNat ∧ o.bank = (k.rd s f.a 0).toNat ∧ o.started = false ∧
      exec (.aclr f) s = .next (ended ((entered s k).updProg k.cluster true (fun p => { p with queue := p.queue ++ [o] })) (enteredCtx s k) [])) ∧
  (∀ (s : State) (k : SlotCtx) (f : XForm), AtSlot s (.sfence f) k → (∀ o ∈ k.p.queue, o.readAt = true) →
    ∃ t, exec (.sfence f) s = .next (ended t (enteredCtx s k) []) ∧ t.mem = s.mem ∧ ∀ e ∈ t.mx.opCache, ¬ (e.cluster = k.cluster ∧ e.ctx = k.ctx))

/-- R243, R253, R258, R259: with the shape, the formats, the handles and the banks in order and room in the queue,
MMA, MMAP and GUIDE queue their operation with the FMT in force. -/
def Sys2Proof.ArrayIssueRule : Prop :=
  (∀ (s s1 : State) (k : SlotCtx) (m : MmaFmt) (f : XForm) (org : Nat × Nat × Nat) (oa ob : MOperand), AtSlot s (.mma m f) k → k.ex ≠ 0 →
    originOf k f.c = some org → k.p.shp ≠ 0 → shpClass k.p.shp = minorClass m → codeClass (k.c.fmt.toNat / 2 ^ 28) = minorClass m →
    codeClass (k.c.fmt.toNat / 2 ^ 24 % 16) = minorClass m →
    resolveAll (enteredCtx s k) ((entered s k).getBlock k.p.block).core [k.rd s f.a 0, k.rd s f.b 0] (entered s k) = (s1, .inr [oa, ob]) →
    recordFits (minorClass m) oa.bytes = true → recordFits (minorClass m) ob.bytes = true → (m = .int → org.2.2 % 32 = 0) →
    operandBad (s1.getBlock k.p.block) oa.bytes (minorClass m) (fmtPrec k.c.fmt) true k.p.shp org = false →
    operandBad (s1.getBlock k.p.block) ob.bytes (minorClass m) (fmtPrec k.c.fmt) false k.p.shp org = false →
    banksOk s1 k.ctx k.cluster (k.sword (bankReg f)).toNat (tileBanks k.p.shp) = true → (k.p.queue.filter (fun o => !o.started)).length < 8 →
    ∃ o : ArrOp, o.kind = .mma ∧ o.a = oa ∧ o.b = ob ∧ o.org = org ∧ o.bank = (k.sword (bankReg f)).toNat ∧ o.fmt = m ∧ o.fmtw = k.c.fmt ∧
      o.acc = f.flags.getLsbD 0 ∧ o.sat = f.flags.getLsbD 1 ∧ o.shp = k.p.shp ∧ o.started = false ∧ o.rows = [] ∧
      exec (.mma m f) s = .next (ended (s1.updProg k.cluster true (fun p => { p with queue := p.queue ++ [o] })) (enteredCtx s k) [])) ∧
  (∀ (s s1 : State) (k : SlotCtx) (m : MmaFmt) (f : XForm) (a : BitVec 7) (org : Nat × Nat × Nat) (o1 o2 ob : MOperand), AtSlot s (.mmap m f) k → k.ex ≠ 0 →
    f.a = .scalar a → a.toNat ≤ 30 → bankReg f ≤ 30 →
    originOf k f.c = some org → k.p.shp ≠ 0 → shpClass k.p.shp = minorClass m → codeClass (k.c.fmt.toNat / 2 ^ 28) = minorClass m →
    codeClass (k.c.fmt.toNat / 2 ^ 24 % 16) = minorClass m →
    resolveAll (enteredCtx s k) ((entered s k).getBlock k.p.block).core [k.sword a.toNat, k.sword (a.toNat + 1), k.rd s f.b 0] (entered s k) = (s1, .inr [o1, o2, ob]) →
    (∀ x ∈ [o1, o2, ob], recordFits (minorClass m) x.bytes = true) → (m = .int → org.2.2 % 32 = 0) →
    (∀ x ∈ [o1, o2], operandBad (s1.getBlock k.p.block) x.bytes (minorClass m) (fmtPrec k.c.fmt) true k.p.shp org = false) →
    operandBad (s1.getBlock k.p.block) ob.bytes (minorClass m) (fmtPrec k.c.fmt) false k.p.shp org = false →
    banksOk s1 k.ctx k.cluster (k.sword (bankReg f)).toNat (tileBanks k.p.shp) = true →
    banksOk s1 k.ctx k.cluster (k.sword (bankReg f + 1)).toNat (tileBanks k.p.shp) = true →
    (progPair s1 k.p (bankSlot f)).cmem ≠ none ∨ (progPair s1 k.p (bankSlot f)).umem ≠ none → (k.p.queue.filter (fun o => !o.started)).length < 8 →
    ∃ o : ArrOp, o.kind = .mmap (bankSlot f) ∧ o.a = o1 ∧ o.a2 = o2 ∧ o.b = ob ∧ o.org = org ∧ o.bank = (k.sword (bankReg f)).toNat ∧
      o.bank2 = (k.sword (bankReg f + 1)).toNat ∧ o.fmt = m ∧ o.fmtw = k.c.fmt ∧ o.started = false ∧ o.rows = [] ∧
      exec (.mmap m f) s = .next (ended (s1.updProg k.cluster true (fun p => { p with queue := p.queue ++ [o] })) (enteredCtx s k) [])) ∧
  (∀ (s : State) (k : SlotCtx) (f : XForm) (n : Nat), AtSlot s (.guide f) k → k.ex ≠ 0 → bankReg f ≤ 30 → (k.rd s f.b 0).toNat = n → 1 ≤ n → n ≤ 32 →
    banksOk s k.ctx k.cluster (k.sword (bankReg f)).toNat n = true → banksOk s k.ctx k.cluster (k.sword (bankReg f + 1)).toNat n = true →
    (k.p.queue.filter (fun o => !o.started)).length < 8 →
    ∃ o : ArrOp, o.kind = .guide (BitVec.ofNat 32 (k.rdF32 s f.a 0)) n (bankSlot f) (f.flags.getLsbD 0) ∧ o.bank = (k.sword (bankReg f)).toNat ∧
      o.bank2 = (k.sword (bankReg f + 1)).toNat ∧ o.fmtw = k.c.fmt ∧ o.started = false ∧
      exec (.guide f) s = .next (ended ((entered s k).updProg k.cluster true (fun p => { p with queue := p.queue ++ [o] })) (enteredCtx s k) []))

/-- Both of the rules above: MatrixSetupRule, ArrayIssueRule. -/
def Obligations.MatrixIssue : Prop := Sys2Proof.MatrixSetupRule ∧ Sys2Proof.ArrayIssueRule

/-- R243, R250, R254, R258: the head operation starts: MMA reads its operands and has a row for each of its tile's
rows and banks, ACLR zero rows; an element of an integer MMA is the accumulator plus the sum of products; a
pending row is written to its bank and nothing else of the banks changes; with no row left the operation leaves
the queue; a wait that is over runs the ready member alone.
Where the rules leave a point open it states the model's reading (assumption 29). -/
def Obligations.ArrayRuns : Prop :=
  (∀ (s : State) (cluster n : Nat) (p : Prog) (o : ArrOp) (os : List ArrOp), s.prog? cluster true = some p → p.queue = o :: os → p.stopped = false → o.readAt = false →
    o.kind = .aclr n →
    let rows := (List.range n).flatMap (fun j => (List.range 16).map (fun r => (o.bank + j, r, List.replicate 64 (0 : Word))))
    ∃ t p', exec (.arrayOpStart cluster) s = .next t ∧ t.mem = s.mem ∧ t.prog? cluster true = some p' ∧
      p'.queue = { o with started := true, readAt := true, rows := rows } :: os) ∧
  (∀ (s : State) (cluster : Nat) (p : Prog) (o : ArrOp) (os : List ArrOp), s.prog? cluster true = some p → p.queue = o :: os → p.stopped = false → o.readAt = false →
    o.kind = .mma →
    ∃ t p' o', exec (.arrayOpStart cluster) s = .next t ∧ t.mem = s.mem ∧ t.mx.banks = s.mx.banks ∧ t.prog? cluster true = some p' ∧ p'.queue = o' :: os ∧
      o'.started = true ∧ o'.readAt = true ∧ o'.rows.length = shpM o.shp * (shpN o.shp / 64) ∧
      ∀ r ∈ o'.rows, o.bank ≤ r.1 ∧ (shpM o.shp % 16 = 0 → r.1 < o.bank + shpM o.shp / 16 * (shpN o.shp / 64)) ∧ r.2.1 < 16 ∧ r.2.2.length = 64) ∧
  (∀ (o : ArrOp) (acc : Word) (ps : List (Nat × Nat)), o.fmt = .int → o.sat = false → fmtAccSat o.fmtw = false →
    (∀ x ∈ ps, x.1 < 2 ^ fmtPrec o.fmtw ∧ x.2 < 2 ^ fmtPrec o.fmtw) →
    let val (code x : Nat) : Int := if code = 2 ∧ 2 ^ (fmtPrec o.fmtw - 1) ≤ x then (x : Int) - 2 ^ fmtPrec o.fmtw else x
    mmaElem o acc ps = BitVec.ofInt 32 (acc.toInt + (ps.map (fun x => val (fmtA o.fmtw) x.1 * val (fmtB o.fmtw) x.2)).sum)) ∧
  (∀ (s : State) (cluster pick b r : Nat) (ws : List Word) (p : Prog) (o : ArrOp) (os : List ArrOp), s.prog? cluster true = some p → p.queue = o :: os → o.started = true →
    o.rows[pick % max 1 o.rows.length]? = some (b, r, ws) → ws.length ≤ 64 → (s.bank? p.ctx cluster b).isSome = true →
    ∃ t p', exec (.arrayOpComplete cluster pick) s = .next t ∧ t.mem = s.mem ∧ t.prog? cluster true = some p' ∧
      p'.queue = { o with rows := o.rows.take (pick % max 1 o.rows.length) ++ o.rows.drop (pick % max 1 o.rows.length + 1) } :: os ∧
      (∀ c < ws.length, bankWord t p.ctx cluster b r c = ws.getD c 0) ∧
      (∀ ctx cl b' r' c', c' < 64 → (ctx, cl, b', r') ≠ (p.ctx, cluster, b, r) → bankWord t ctx cl b' r' c' = bankWord s ctx cl b' r' c')) ∧
  (∀ (s : State) (cluster pick : Nat) (p : Prog) (o : ArrOp) (os : List ArrOp), s.prog? cluster true = some p → p.queue = o :: os → o.started = true → o.readAt = true →
    o.rows = [] → p.live = true →
    ∃ t p', exec (.arrayOpComplete cluster pick) s = .next t ∧ t.mem = s.mem ∧ t.mx.banks = s.mx.banks ∧ t.prog? cluster true = some p' ∧ p'.queue = os) ∧
  (∀ (s : State) (cluster : Nat) (p : Prog) (o : ArrOp) (os : List ArrOp), s.prog? cluster true = some p → p.queue = o :: os → p.stopped = false →
    o.waits (s.getBlock p.block) = true → (s.getCtx p.ctx).pair.toNat % 65536 ≤ o.waited →
    exec (.pairWaitExpire cluster) s = .next (arrStart (setHead s cluster (fun o => { o with expired := true })) cluster))

/-- R256, R260 to R262: PAIR binds a role of a slot to its group, or answers busy or refused, and unbinds; ARD gives
each active lane its words of a granted band, AWR writes them, TRBP transposes bits over the active lanes.
Where the rules leave a point open it states the model's reading (assumption 67). -/
def Obligations.PairsAndBands : Prop :=
  (∀ (s : State) (k : SlotCtx) (f : VForm) (n role aw : Nat), AtSlot s (.pairBind f) k → isSplit k.u = true → k.ex ≠ 0 →
    (∀ l ∈ k.lanes, (k.rd s f.a l).toNat = n ∧ (k.rd s f.b l).toNat = role ∧ (k.rd s f.c l).toNat = aw) → n ≤ 7 → role ≤ 1 → aw % 8 = 0 →
    aw + 8 ≤ 256 * (s.getBlock k.g.block).hdr.scratch →
    let p := (s.getBlock k.g.block).pairs.get n default
    let mine := if role = 0 then p.cmem else p.umem
    let other := if role = 0 then p.umem else p.cmem
    let gen := (s.getBlock k.g.block).nat aw 8 % 2 ^ 16
    (mine ≠ none → mine ≠ some k.g.gidx → exec (.pairBind f) s = .next (ended (entered s k) (enteredCtx s k) (onLanes k (fun _ => [2])))) ∧
    (mine = none ∨ mine = some k.g.gidx → other = some k.g.gidx →
      exec (.pairBind f) s = .next (ended (entered s k) (enteredCtx s k) (onLanes k (fun _ => [3])))) ∧
    (mine = none ∨ mine = some k.g.gidx → other ≠ some k.g.gidx →
      ∃ t, exec (.pairBind f) s = .next (ended t (enteredCtx s k) (onLanes k (fun _ => [1]))) ∧ t.mem = s.mem ∧
        (t.getBlock k.g.block).pairs.get n default = (if role = 0 then { p with cmem := some k.g.gidx, caw := aw, cgen := gen, ccur := false }
          else { p with umem := some k.g.gidx, uaw := aw, ugen := gen, ucur := false }))) ∧
  (∀ (s : State) (k : SlotCtx) (f : VForm) (n : Nat) (b : Block), AtSlot s (.pairUnbind f) k → isSplit k.u = true → k.ex ≠ 0 →
    (∀ l ∈ k.lanes, (k.rd s f.a l).toNat = n) → n ≤ 7 → s.block? k.g.block = some b →
    let p := b.pairs.get n default
    (p.cmem ≠ some k.g.gidx → p.umem ≠ some k.g.gidx → exec (.pairUnbind f) s = .next (ended (entered s k) (enteredCtx s k) (onLanes k (fun _ => [0])))) ∧
    (p.cmem = some k.g.gidx ∨ p.umem = some k.g.gidx →
      ∃ t, exec (.pairUnbind f) s = .next (ended t (enteredCtx s k) (onLanes k (fun _ => [1]))) ∧
        ((t.getBlock k.g.block).pairs.get n default).cmem = (if p.cmem = some k.g.gidx then none else p.cmem) ∧
        ((t.getBlock k.g.block).pairs.get n default).umem = (if p.umem = some k.g.gidx then none else p.umem))) ∧
  (∀ (s : State) (k : SlotCtx) (f : XForm) (a : BitVec 9) (b row : Nat) (d : Band), isSplit k.u = true → k.ex ≠ 0 → f.a = .v a →
    (∀ l ∈ k.lanes, (k.rd s f.b l).toNat = b ∧ (k.rd s f.c l).toNat = row) → k.g.hdr.width ≠ 0 →
    let R := (f.flags.extractLsb' 0 4).toNat + 1
    row + R ≤ 16 → a.toNat + (64 * R + k.g.hdr.width - 1) / k.g.hdr.width ≤ k.g.vregs → (s.bank? k.ctx k.cluster b).isSome = true →
    some d ∈ k.g.bands → d.bank ≤ b → b < d.bank + d.n → d.row0 ≤ row → row + R ≤ d.row0 + d.h → (f.flags.extractLsb' 4 2).toNat = 0 →
    (∀ l ∈ k.lanes, l < k.g.hdr.width) →
    (AtSlot s (.ard f) k → ∃ t r, exec (.ard f) s = .next (ended t (enteredCtx s k) r) ∧ t.mem = s.mem ∧ t.mx = s.mx ∧
      (∀ e < 64 * R, e % k.g.hdr.width ∈ k.lanes →
        (t.getGroup k.gid).vreg (a.toNat + e / k.g.hdr.width) (e % k.g.hdr.width) = bankWord s k.ctx k.cluster b (row + e / 64) (e % 64)) ∧
      (∀ j l, l < k.g.hdr.width → (l ∉ k.lanes ∨ j < a.toNat ∨ 64 * R ≤ (j - a.toNat) * k.g.hdr.width + l) → (t.getGroup k.gid).vreg j l = k.g.vreg j l)) ∧
    (AtSlot s (.awr f) k → d.w = true → ∃ t, exec (.awr f) s = .next (ended t (enteredCtx s k) []) ∧ t.mem = s.mem ∧
      (∀ e < 64 * R, e % k.g.hdr.width ∈ k.lanes →
        bankWord t k.ctx k.cluster b (row + e / 64) (e % 64) = k.g.vreg (a.toNat + e / k.g.hdr.width) (e % k.g.hdr.width)) ∧
      (∀ r c, r < 16 → c < 64 → (r < row ∨ row + R ≤ r ∨ ((r - row) * 64 + c) % k.g.hdr.width ∉ k.lanes) →
        bankWord t k.ctx k.cluster b r c = bankWord s k.ctx k.cluster b r c))) ∧
  (∀ (s : State) (k : SlotCtx) (f : XForm) (d : BitVec 9), AtSlot s (.trbp f) k → isSplit k.u = true → f.a = .v d →
    let w := if k.g.hdr.width = 16 then 16 else 32
    ∃ t, ∃ v : Nat → Word, exec (.trbp f) s = .next (ended t (enteredCtx s k) (onLanes k (fun l => [v l]))) ∧ t.mem = s.mem ∧
      (∀ l ∈ k.lanes, ∀ i < 32, (v l).getLsbD i = (decide (i < w) && k.mask.getLsbD (l / w * w + i) && (k.rd s f.b (l / w * w + i)).getLsbD (l % w))) ∧
      ∀ l ∈ k.lanes, l < k.g.hdr.width → (∀ l' ∈ k.lanes, l' < k.g.hdr.width) → (t.getGroup k.gid).vreg d.toNat l = v l)

/-! ## Traps, registers and system acts (R6 to R25, R294 to R321) -/

/-- R302, R305, R349: TRAP traps the executing lanes whose source is not zero, with its code, or has no effect;
TRET records each lane's status word, and outside a handler traps TRET_CONTEXT; BSAD4 traps the whole split
ILLEGAL_OP before any other check. -/
def Obligations.TrapInstructions : Prop :=
  (∀ (s : State) (k : SlotCtx) (f : YForm), AtSlot s (.trap f) k → isSplit k.u = true →
    ((∀ l ∈ k.lanes, k.rd s f.src l = 0) → exec (.trap f) s = .next (ended (entered s k) (enteredCtx s k) [])) ∧
    ((∃ l ∈ k.lanes, k.rd s f.src l ≠ 0) → ∃ c, exec (.trap f) s = .next (trapAt (entered s k) (enteredCtx s k)
      ⟨5, (k.lanes.filter (fun l => k.rd s f.src l != 0)).map (fun l => (l, ⟨.illegalOp, 0, f.sysid.toNat⟩))⟩ c))) ∧
  (∀ (s : State) (k : SlotCtx) (f : YForm), AtSlot s (.tret f) k → isSplit k.u = true → k.park = none →
    (k.sp.handler = none → ∃ c, exec (.tret f) s = .next (trapAt (entered s k) (enteredCtx s k)
      ⟨0, (lanesOf k.sp.mask).map (fun l => (l, ⟨.tretContext, 0, 0⟩))⟩ c)) ∧
    (k.sp.handler.isSome = true → ∃ v : SMap Word, (∀ l ∈ k.lanes, v.get l 0 = k.rd s f.src l) ∧
      exec (.tret f) s = .next (transferred (entered s k) (enteredCtx s k) v))) ∧
  (∀ (s : State) (k : SlotCtx) (f : VForm), slotCtx s (.bsad4 f) = some k → isSplit k.u = true →
    exec (.bsad4 f) s = .next (settleAll (trapWhole (entered s k) k.gid k.entry false (enteredCtx s k).c (encode (.bsad4 f))
      ⟨0, (lanesOf k.sp.mask).map (fun l => (l, ⟨.illegalOp, 0, 0⟩))⟩) k.gid))

/-- The context that an operand of RDSR, WRSR or BKTRD names (R307). -/
def Sys2Proof.namesCtx (k : SlotCtx) (x : Word) : Nat := if x = 0xFFFFFFFF then k.ctx else x.toNat

/-- R10, R306, R307: RDSR gives each lane the register of the context it names, in one word or two, and traps
RIGHTS on the lanes that may not read it; an owner reads its own registers as they stand, its CX.AUTH without
AUDSCOPE, and none of the operator's. -/
def Sys2Proof.RegisterReadsRule : Prop :=
  (∀ (s : State) (k : SlotCtx) (f : YForm), AtSlot s (.rdsr f) k →
    let val (l : Nat) : Option Nat := readReg (entered s k) (k.gid, k.entry) k.ctx (namesCtx k (k.rd s f.src l)) f.sysid.toNat
    ((∀ l ∈ k.lanes, (val l).isSome = true) → exec (.rdsr f) s = .next (ended (entered s k) (enteredCtx s k) (onLanes k (fun l =>
      if sysWords f.sysid.toNat = 2 then [BitVec.ofNat 32 ((val l).getD 0), BitVec.ofNat 32 ((val l).getD 0 / 2 ^ 32)] else [BitVec.ofNat 32 ((val l).getD 0)])))) ∧
    (isSplit k.u = true → (∃ l ∈ k.lanes, val l = none) → ∃ c, exec (.rdsr f) s = .next (trapAt (entered s k) (enteredCtx s k)
      ⟨0, (k.lanes.filter (fun l => (val l).isNone)).map (fun l => (l, ⟨.rights, 0, 0⟩))⟩ c))) ∧
  (∀ (s : State) (gid e c r : Nat) (g : Group), s.liveCtx c = true → s.group? gid = some g →
    let x := s.getCtx c
    (x.auth < 4 → x.audscope < 2 ^ 16 → x.part < 16 →
      readReg s (gid, e) c c 0x01 = some (x.part * 2 ^ 20 + (if x.restore then 8 else 0) + (if x.claimed then 4 else 0) + x.auth)) ∧
    (readReg s (gid, e) c c 0x03 = some x.tvec.toNat) ∧
    (g.spillBase < 2 ^ 64 → readReg s (gid, e) c c 0x05 = some g.spillBase) ∧
    (g.spillLim < 2 ^ 32 → readReg s (gid, e) c c 0x06 = some g.spillLim) ∧
    (g.maxDepth < 2 ^ 10 → g.burst < 2 ^ 32 → readReg s (gid, e) c c 0x07 = some (g.maxDepth * 2 ^ 32 + g.burst)) ∧
    (readReg s (gid, e) c c 0x08 = some x.spillPool.toNat) ∧ (readReg s (gid, e) c c 0x09 = some x.spillAreas.toNat) ∧
    (readReg s (gid, e) c c 0x0A = some x.wdog.toNat) ∧ (readReg s (gid, e) c c 0x0B = some x.fair.toNat) ∧
    (readReg s (gid, e) c c 0x0C = some g.fpstat.toNat) ∧ (readReg s (gid, e) c c 0x0D = some x.pair.toNat) ∧
    (readReg s (gid, e) c c 0x0E = some x.lease.toNat) ∧ (readReg s (gid, e) c c 0x0F = some x.htab.toNat) ∧
    (readReg s (gid, e) c c 0x10 = some x.hlim.toNat) ∧ (c < 4096 → readReg s (gid, e) c c 0x11 = some x.num) ∧
    (readReg s (gid, e) c c 0x12 = some x.s1root.toNat) ∧ (readReg s (gid, e) c c 0x15 = some x.abquota.toNat) ∧
    (readReg s (gid, e) c c 0x16 = some x.slice.toNat) ∧ (readReg s (gid, e) c c 0x1D = some x.nlog.toNat) ∧
    (r = 0x13 ∨ r = 0x14 ∨ r = 0x1A ∨ r = 0x1B ∨ r = 0x1C → readReg s (gid, e) c c r = none)) ∧
  (∀ (s : State) (who : Nat × Nat) (a c r : Nat), a ≠ c →
    (s.liveCtx c = false → readReg s who a c r = none) ∧
    ((s.getCtx a).auth = 2 → readReg s who a c r = none) ∧
    ((s.getCtx a).auth = 1 → (s.getCtx a).part ≠ (s.getCtx c).part → readReg s who a c r = none) ∧
    ((r = 0x04 ∨ r = 0x05 ∨ r = 0x06 ∨ r = 0x07 ∨ r = 0x0C) → readReg s who a c r = none))

/-- The value that a lane of WRSR writes (R307). -/
def Sys2Proof.wrsrValue (f : YWForm) (k : SlotCtx) (s : State) (l : Nat) : Nat :=
  if sysWords f.sysid.toNat = 2 then k.rd64 s f.src l else (k.rd s f.src l).toNat

/-- R10, R126, R198, R306, R307: WRSR writes lane by lane, ascending, so that the highest lane's value stays, and traps
the lanes whose write is refused; an owner's register takes the value written if its reserved bits are zero, traps
RESERVED_FIELD otherwise, and RIGHTS where a field it may not write would change. -/
def Sys2Proof.RegisterWritesRule : Prop :=
  (∀ (s : State) (k : SlotCtx) (f : YWForm), AtSlot s (.wrsr f) k →
    let who := (k.gid, k.entry)
    let step (t : State) (l : Nat) : State := writeReg t who (namesCtx k (k.rd s f.ctx l)) f.sysid.toNat (wrsrValue f k s l)
    let bad (t : State) (l : Nat) : Option Cause := writeBad t who k.ctx (namesCtx k (k.rd s f.ctx l)) f.sysid.toNat (wrsrValue f k s l)
    ((∀ pre l post, k.lanes = pre ++ l :: post → bad (pre.foldl step (entered s k)) l = none) →
      exec (.wrsr f) s = .next (ended (k.lanes.foldl step (entered s k)) (enteredCtx s k) [])) ∧
    (isSplit k.u = true → ∀ l cause, k.lanes = [l] → bad (entered s k) l = some cause →
      ∃ c, exec (.wrsr f) s = .next (trapAt (entered s k) (enteredCtx s k) ⟨0, [(l, ⟨cause, 0, 0⟩)]⟩ c))) ∧
  (∀ (s : State) (gid e c r v : Nat) (g : Group), s.ctx? c = some (s.getCtx c) → (s.getCtx c).run ≠ 7 → s.group? gid = some g →
    let res : Nat := match r with
      | 0x03 => 6 | 0x05 => 0xFF00000000000FFF | 0x06 => 0xFFF | 0x08 => 0xFF00000000000FFF | 0x09 => 0 | 0x0A => 0
      | 0x0C => 0xFFFFFEF0 | 0x0E => 0xFFFFE000 | 0x0F => 0xFF0000000000003F | 0x10 => 0xFE000000 | 0x12 => 0xFF0000000000FFFF
      | 0x1D => 0xFF0000000000003E | _ => 0
    r = 0x03 ∨ r = 0x05 ∨ r = 0x06 ∨ r = 0x08 ∨ r = 0x09 ∨ r = 0x0A ∨ r = 0x0C ∨ r = 0x0E ∨ r = 0x0F ∨ r = 0x10 ∨ r = 0x12 ∨ r = 0x1D →
    v < (if sysWords r = 2 then 2 ^ 64 else 2 ^ 32) →
    (writeBad s (gid, e) c c r v = if v &&& res = 0 then none else some .reservedField) ∧
    ∃ g', (writeReg s (gid, e) c r v).group? gid = some g' ∧
      regValue (writeReg s (gid, e) c r v) (gid, e) ((writeReg s (gid, e) c r v).getCtx c) r =
        (if r = 0x0E then max 64 (min 4096 v) else v) ∧
      (writeReg s (gid, e) c r v).mem = s.mem ∧ g'.win = g.win ∧ g'.sreg = g.sreg ∧ g'.preds = g.preds ∧ g'.splits = g.splits ∧
      ∀ r' < 0x1E, r' ≠ r → r' ≠ 0x02 → (r = 0x05 → r' ≠ 0x04) → regValue (writeReg s (gid, e) c r v) (gid, e) ((writeReg s (gid, e) c r v).getCtx c) r' = regValue s (gid, e) (s.getCtx c) r') ∧
  (∀ (s : State) (gid e c r v : Nat), s.liveCtx c = true → r = 0x04 ∨ r = 0x01 ∨ r = 0x0B ∨ r = 0x11 ∨ r = 0x13 ∨ r = 0x15 ∨ r = 0x16 ∨ r = 0x17 ∨
      r = 0x18 ∨ r = 0x19 ∨ r = 0x1A ∨ r = 0x1B ∨ r = 0x1C →
    (r ≠ 0x04 → (∃ x ∈ regFields r, x.res = false ∧ bitsOf v x.lo x.n ≠ bitsOf (regValue s (gid, e) (s.getCtx c) r) x.lo x.n)) →
    writeBad s (gid, e) c c r v = some .rights)

/-- Both of the rules above: RegisterReadsRule, RegisterWritesRule.
Where the rules leave a point open it states the model's reading (assumptions 33 and 34). -/
def Obligations.SystemRegisters : Prop := Sys2Proof.RegisterReadsRule ∧ Sys2Proof.RegisterWritesRule

/-- R293 to R295: CNTRD gives a counter of a live context in scope, or the scope's total for -1, and BKTRD a
bucket's level, sign-extended; a context out of reach traps RIGHTS on its lane. -/
def Obligations.CountersAndBuckets : Prop :=
  (∀ (s : State) (k : SlotCtx) (f : YForm), AtSlot s (.cntrd f) k →
    let a := (entered s k).getCtx k.ctx
    let seen (c : Ctx) : Bool := a.audscope == 0xFFFF || a.part == c.part
    let ok (l : Nat) : Bool := k.rd s f.src l == 0xFFFFFFFF || ((entered s k).liveCtx (k.rd s f.src l).toNat && seen ((entered s k).getCtx (k.rd s f.src l).toNat))
    let val (l : Nat) : Nat := if k.rd s f.src l = 0xFFFFFFFF then scopeTotal (entered s k) a f.sysid.toNat
      else ((entered s k).getCtx (k.rd s f.src l).toNat).counters.get f.sysid.toNat 0
    ((∀ l ∈ k.lanes, ok l = true) →
      exec (.cntrd f) s = .next (ended (entered s k) (enteredCtx s k) (onLanes k (fun l => [BitVec.ofNat 32 (val l), BitVec.ofNat 32 (val l / 2 ^ 32)])))) ∧
    (isSplit k.u = true → (∃ l ∈ k.lanes, ok l = false) → ∃ c, exec (.cntrd f) s = .next (trapAt (entered s k) (enteredCtx s k)
      ⟨0, (k.lanes.filter (fun l => !ok l)).map (fun l => (l, ⟨.rights, 0, 0⟩))⟩ c))) ∧
  (∀ (s : State) (k : SlotCtx) (f : YForm), AtSlot s (.bktrd f) k →
    let a := (entered s k).getCtx k.ctx
    let c (l : Nat) : Nat := namesCtx k (k.rd s f.src l)
    let ok (l : Nat) : Bool := if a.auth = 2 then c l == k.ctx else (entered s k).liveCtx (c l) && ((entered s k).getCtx (c l)).part == a.part
    let b (l : Nat) : Bucket := ((entered s k).getCtx (c l)).bkt.getD f.sysid.toNat default
    ((∀ l ∈ k.lanes, ok l = true) → (∀ l ∈ k.lanes, (b l).rate ≠ 0x3FFFFF ∧ -2 ^ 39 ≤ (b l).level ∧ (b l).level < 2 ^ 39) →
      exec (.bktrd f) s = .next (ended (entered s k) (enteredCtx s k) (onLanes k (fun l =>
        [(BitVec.ofInt 64 (b l).level).extractLsb' 0 32, (BitVec.ofInt 64 (b l).level).extractLsb' 32 32])))) ∧
    (isSplit k.u = true → (∃ l ∈ k.lanes, ok l = false) → ∃ c', exec (.bktrd f) s = .next (trapAt (entered s k) (enteredCtx s k)
      ⟨0, (k.lanes.filter (fun l => !ok l)).map (fun l => (l, ⟨.rights, 0, 0⟩))⟩ c')))

/-- A lane of a system act that has none under way. -/
structure Sys2Proof.OneAct (s : State) (i : Instr) (k : SlotCtx) (l : Nat) : Prop where
  at' : AtSlot s i k
  lane : k.lanes = [l]
  free : ∀ a ∈ s.ctl.acts, a.gid = k.gid → a.entry = k.entry → a.lane ≠ l

/-- R313: STATUS in [31:16] and VALUE in [15:0]. -/
def Sys2Proof.actStatus (st v : Nat) : Word := BitVec.ofNat 32 (st * 65536 + v)

/-- R8, R313 to R315: PLACE reads its record and makes a new shell, held until it is claimed, or an auditor, runnable, and
gives its number; an operator's record gives AUTH_DENIED, a bad field BADRECORD with its offset. PLACE.1 marks the
shell for the image its record names. -/
def Sys2Proof.PlacementRule : Prop :=
  ∀ (s s1 : State) (k : SlotCtx) (f : YForm) (l : Nat) (b : List Byte),
    k.rd64 s f.src l % 64 = 0 → k.rd64 s f.src l < 2 ^ 56 → readVirt (entered s k) k.who k.core k.ctx (k.rd64 s f.src l) 64 .read = (s1, .inr b) →
    (OneAct s (.place f) k l → leAt b 1 1 % 2 = 0 →
      (leAt b 0 1 = 1 → exec (.place f) s = .next (ended s1 (enteredCtx s k) [(l, [actStatus 1 0])])) ∧
      (∀ o, leAt b 0 1 ≠ 1 → placeBad b false = some o → exec (.place f) s = .next (ended s1 (enteredCtx s k) [(l, [actStatus 6 o])])) ∧
      (∀ n, leAt b 0 1 ≠ 1 → placeBad b false = none → n < 4096 → s1.liveCtx n = false → (∀ m < n, s1.liveCtx m = true) →
        recClusters b &&& ~~~partClusters s1 (s1.getCtx k.ctx).part = 0 → (leAt b 0 1 = 2 → keyQuota s1 (s1.getCtx k.ctx).part ≠ 0) →
        ∃ t c, exec (.place f) s = .next (ended t (enteredCtx s k) [(l, [actStatus 0 n])]) ∧ t.mem = s1.mem ∧ t.ctx? n = some c ∧
          c.auth = leAt b 0 1 ∧ c.part = (s1.getCtx k.ctx).part ∧ c.claimed = false ∧ c.restore = false ∧ c.run = (if leAt b 0 1 = 3 then 1 else 0) ∧
          c.s2root = BitVec.ofNat 64 (leAt b 8 8) ∧ c.saveBase = leAt b 16 8 ∧ c.saveSize = leAt b 24 4 ∧ c.tenant = leAt b 32 8 ∧
          c.tvec = 0 ∧ c.wdog = 0x01000000 ∧ c.fair = 2048 ∧ c.pair = 4096 ∧ c.lease = 256 ∧ c.abquota = 128 ∧ c.slice = 2000 ∧
          ∀ m, m ≠ n → t.ctx? m = s1.ctx? m)) ∧
    (∀ (s2 : State) (h : List Byte) (n : Nat), OneAct s (.placeRestore f) k l → leAt b 1 1 % 2 = 0 → leAt b 0 1 ≠ 1 → placeBad b true = none →
      leAt b 40 8 < 2 ^ 56 → readVirt s1 k.who k.core k.ctx (leAt b 40 8) 256 .read = (s2, .inr h) → headerKnown h = true →
      missingBlock s2 h = none → n < 4096 → s2.liveCtx n = false → (∀ m < n, s2.liveCtx m = true) →
      recClusters b &&& ~~~partClusters s2 (s2.getCtx k.ctx).part = 0 → keyQuota s2 (s2.getCtx k.ctx).part ≠ 0 →
      ∃ t c, exec (.placeRestore f) s = .next (ended t (enteredCtx s k) [(l, [actStatus 0 n])]) ∧ t.mem = s2.mem ∧ t.ctx? n = some c ∧
        c.auth = 2 ∧ c.restore = true ∧ c.run = 0 ∧ c.image = some (leAt b 40 8) ∧ c.imgSize = leAt b 48 4)

/-- R24, R25, R313, R315, R316: EVICT.0, .2, .3 and KEYBIND on a context that is not there give NO_SHELL, or
NOIMAGE for EVICT.3; EVICT.1 destroys the context and gives OK; EVICT.0 and EVICT.2 halt the context and wait, and take
their result once the act has one. KEYBIND binds the operator's key to a shell and makes it runnable. -/
def Sys2Proof.EvictionsAndKeysRule : Prop :=
  (∀ (s : State) (k : SlotCtx) (f : YForm) (i : Instr) (l : Nat), OneAct s i k l → i = .evict f ∨ i = .evictDestroy f ∨ i = .evictSeal f ∨ i = .keybind f →
    (i = .keybind f → (k.word s f.src l 1).toNat < 2) → (entered s k).ctx? (k.word s f.src l 0).toNat = none →
    exec i s = .next (ended (entered s k) (enteredCtx s k) [(l, [actStatus 2 0])])) ∧
  (∀ (s : State) (k : SlotCtx) (f : YForm) (l : Nat) (c : Ctx), OneAct s (.evictDestroy f) k l → (k.word s f.src l 0).toNat = c.num →
    s.ctx? c.num = some c → c.part = (s.getCtx k.ctx).part → c.auth ≠ 1 → c.run < 7 → c.num ≠ k.ctx → actBusy s c.num = false →
    ∃ t, exec (.evictDestroy f) s = .next (ended t (enteredCtx s k) [(l, [actStatus 0 0])]) ∧ (t.getCtx c.num).run = 7 ∧
      (∀ g ∈ t.groups, g.ctx ≠ c.num) ∧ (∀ b ∈ t.blocks, b.ctx ≠ c.num) ∧ (∀ q ∈ t.ctl.queues, q.ctx ≠ c.num) ∧ ∀ x ∈ t.mx.ops, x.ctx ≠ c.num) ∧
  (∀ (s : State) (k : SlotCtx) (f : YForm) (i : Instr) (l : Nat) (c : Ctx), OneAct s i k l → i = .evict f ∨ i = .evictSeal f →
    (k.word s f.src l 0).toNat = c.num → (entered s k).ctx? c.num = some c → c.part = ((entered s k).getCtx k.ctx).part → c.auth ≠ 1 → c.run = 2 → c.gang = false →
    actBusy s c.num = false → (i = .evictSeal f → s.ctl.seals.length < 4096) →
    ∀ s1 p, planSeal (entered s k) c.num k.ctx (if i = .evict f then c.saveBase else (k.word s f.src l 1).toNat + (k.word s f.src l 2).toNat * 2 ^ 32)
      (if i = .evict f then c.saveSize else (k.word s f.src l 3).toNat) 0 = .inr (s1, p) →
    ∃ t c', exec i s = .next t ∧ t.ctx? c.num = some c' ∧ c'.leave.isSome = true ∧ (⟨k.gid, k.entry, l, c.num, none⟩ : Machine.Act) ∈ t.ctl.acts ∧
      (∀ g ∈ t.groups, g.ctx = c.num → g.resident = true → g.halted = true)) ∧
  (∀ (s : State) (k : SlotCtx) (i : Instr) (l : Nat) (a : Machine.Act) (w : Word), AtSlot s i k → k.lanes = [l] →
    (match i with | .place _ | .placeRestore _ | .evict _ | .evictDestroy _ | .evictSeal _ | .evictDiscard _ | .keybind _ | .gswitchSave _ | .gswitchRestore _ => True | _ => False) →
    s.ctl.acts.find? (fun x => x.gid == k.gid && x.entry == k.entry && x.lane == l) = some a →
    (a.done = none → exec i s = .next (entered s k)) ∧
    (a.done = some w → ∃ t, exec i s = .next (ended t (enteredCtx s k) [(l, [w])]) ∧ t.mem = s.mem ∧ ∀ x, x ∈ t.ctl.acts ↔ x ∈ s.ctl.acts ∧ x ≠ a)) ∧
  (∀ (s s1 : State) (k : SlotCtx) (f : YForm) (l : Nat) (h : List Byte), OneAct s (.evictDiscard f) k l → k.rd64 s f.src l < 2 ^ 56 →
    readVirt (entered s k) k.who k.core k.ctx (k.rd64 s f.src l) 256 .read = (s1, .inr h) →
    ((∀ e ∈ s1.ctl.seals, e.ctrbase = leAt h 24 8 → e.part ≠ (s1.getCtx k.ctx).part) →
      exec (.evictDiscard f) s = .next (ended s1 (enteredCtx s k) [(l, [actStatus 0x10 0])])) ∧
    (leAt h 16 4 = s1.boot.cfg.inst → (∃ e ∈ s1.ctl.seals, e.ctrbase = leAt h 24 8 ∧ e.part = (s1.getCtx k.ctx).part) →
      ∃ t, exec (.evictDiscard f) s = .next (ended t (enteredCtx s k) [(l, [actStatus 0 0])]) ∧ t.mem = s1.mem ∧
        ∀ e ∈ t.ctl.seals, e.ctrbase ≠ leAt h 24 8)) ∧
  (∀ (s : State) (k : SlotCtx) (f : YForm) (l : Nat) (c : Ctx) (ks : KeySlot), OneAct s (.keybind f) k l → (k.word s f.src l 0).toNat = c.num →
    (k.word s f.src l 1).toNat < 2 → (entered s k).ctx? c.num = some c → c.part = ((entered s k).getCtx k.ctx).part → c.auth = 2 → c.claimed = false → c.run ≠ 7 → c.image = none →
    actBusy s c.num = false → ((entered s k).getCtx k.ctx).keySlot = some ks.slot → s.keySlot? ks.slot = some ks → (c.tenant = 0 ∨ c.tenant = ks.tenant) →
    ∃ t c', exec (.keybind f) s = .next (ended t (enteredCtx s k) [(l, [actStatus 0 0])]) ∧ t.ctx? c.num = some c' ∧ c'.claimed = true ∧ c'.run = 1 ∧
      c'.keySlot = some ks.slot ∧ c'.acceptInc = decide ((k.word s f.src l 1).toNat = 1))

/-- R319 to R321: GSWITCH.0 of a running job's member with room for its areas and image before its window, and
GSWITCH.1 of one that is switched out here with its image in order, wait for their window. -/
def Sys2Proof.GangSwitchIssueRule : Prop :=
  ∀ (s s1 : State) (k : SlotCtx) (f : YForm) (l : Nat) (b : List Byte) (c : Ctx),
    k.rd64 s f.src l % 64 = 0 → k.rd64 s f.src l < 2 ^ 56 → readVirt (entered s k) k.who k.core k.ctx (k.rd64 s f.src l) 64 .read = (s1, .inr b) →
    switchBad b = none → s1.ctx? (leAt b 0 4) = some c → c.part = (s1.getCtx k.ctx).part → actBusy s1 c.num = false → c.num = leAt b 0 4 →
    let act : Machine.Act := ⟨k.gid, k.entry, l, c.num, none⟩
    (s1.now < leAt b 8 8 * 1024 → OneAct s (.gswitchSave f) k l → c.gang = true → c.run = 2 → c.leave = none →
      bufferReach s1 k.ctx (leAt b 32 8) (leAt b 28 4 * 4096) = true → bufferReach s1 k.ctx (leAt b 40 8) (leAt b 48 4 * 4096) = true →
      ∀ s2 p, planSeal s1 c.num k.ctx (leAt b 16 8) (leAt b 24 4) 1 = .inr (s2, p) →
      ∃ t w, exec (.gswitchSave f) s = .next t ∧ act ∈ t.ctl.acts ∧ w ∈ t.fab.switches ∧ w.ctx = c.num ∧ w.window = leAt b 8 8 ∧ w.phase = .waiting ∧ t.mem = s2.mem) ∧
    (s1.now < leAt b 8 8 * 1024 → OneAct s (.gswitchRestore f) k l → c.run = 6 → ∀ im, gangImage s1 k c (SwitchRec.ofBytes b) = .inr im →
      ∃ t w, exec (.gswitchRestore f) s = .next t ∧ act ∈ t.ctl.acts ∧ w ∈ t.fab.switches ∧ w.ctx = c.num ∧ w.window = leAt b 8 8 ∧ w.phase = .restoring ∧
        w.imageId = im.id ∧ t.mem = s1.mem) ∧
    (leAt b 8 8 * 1024 ≤ s1.now → OneAct s (.gswitchSave f) k l → c.gang = true → c.run = 2 → c.leave = none →
      exec (.gswitchSave f) s = .next (ended s1 (enteredCtx s k) [(l, [actStatus 0xF 0])]))

/-- All of the rules above: PlacementRule, EvictionsAndKeysRule, GangSwitchIssueRule.
Where the rules leave a point open it states the model's reading (assumptions 20, 38 and 39). -/
def Obligations.SystemActs : Prop := Sys2Proof.PlacementRule ∧ Sys2Proof.EvictionsAndKeysRule ∧ Sys2Proof.GangSwitchIssueRule

/-! ## Events of registers, translation and eviction (R23, R172, R186, R214, R326) -/

/-- R23, R172, R186: a write of CX.TINV drops the translations it names from every core, with STAGE 1 it lets the
accesses stalled on its pages retry; a write of CX.HTAB or CX.HLIM drops the context's handle-cache entries; a retry
with the page mapped ends the stalls on it. -/
def Sys2Proof.TranslationEventsRule : Prop :=
  (∀ (s : State) (a c : Nat) (v : DWord), s.liveCtx a = true → s.liveCtx c = true → v.getLsbD 63 = true → v &&& 0x7F0000000001FFFE = 0 →
    (s.getCtx a).auth = 1 → (s.getCtx a).part = (s.getCtx c).part →
    ∃ t, exec (.tinvStage2 a c v) s = .next t ∧ t.mem = s.mem ∧ t.ctxs = s.ctxs ∧
      (∀ x, x ∈ t.vis.tlb ↔ x ∈ s.vis.tlb ∧ ¬(x.ctx = c ∧ x.stage2 = true ∧ (v.getLsbD 0 = true ∨ x.page = v.toNat / 2 ^ 17 % 2 ^ 39))) ∧
      t.vis.stalls = s.vis.stalls.map (fun x => if x.ctx = c ∧ (v.getLsbD 0 = true ∨ x.ipage = v.toNat / 2 ^ 17 % 2 ^ 39) then { x with freed := true } else x)) ∧
  (∀ (s : State) (a : Nat) (v : DWord), s.liveCtx a = true → v.getLsbD 63 = false → v &&& 0x7F0000000001FFFE = 0 →
    ∃ t, exec (.tinvStage1 a a v) s = .next t ∧ t.mem = s.mem ∧ t.vis.stalls = s.vis.stalls ∧
      (∀ x, x ∈ t.vis.tlb ↔ x ∈ s.vis.tlb ∧ ¬(x.ctx = a ∧ x.stage2 = false ∧ (v.getLsbD 0 = true ∨ x.page = v.toNat / 2 ^ 17 % 2 ^ 39)))) ∧
  (∀ (s : State) (a : Nat) (lim : Bool) (v : DWord), s.liveCtx a = true → (if lim then v.toNat < 2 ^ 25 else v &&& 0xFF0000000000003F = 0) →
    ∃ t, exec (.htabWrite a lim v) s = .next t ∧ t.mem = s.mem ∧ (∀ x, x ∈ t.vis.hcache ↔ x ∈ s.vis.hcache ∧ x.ctx ≠ a) ∧
      (if lim then (t.getCtx a).hlim.toNat = v.toNat ∧ (t.getCtx a).htab = (s.getCtx a).htab
        else (t.getCtx a).htab = v ∧ (t.getCtx a).hlim = (s.getCtx a).hlim)) ∧
  (∀ (s : State) (c p : Nat), (∃ pa x y, walk2 s c (p * 131072) 5 0 (s.getCtx c).s2root.toNat = .leaf pa x y) →
    ∃ t, exec (.stalledAccessRetry c p) s = .next t ∧ t.mem = s.mem ∧
      ∀ x, x ∈ t.vis.stalls ↔ x ∈ s.vis.stalls ∧ ¬(x.ctx = c ∧ x.ipage = p ∧ x.freed = true))

/-- R307, R326, R327: an operator's write of a context register of its partition takes effect as WRSR's does; the
host's writes of a function's registers set the command address, start a command by reading its record, mark the
function resident and set its interrupt log. -/
def Sys2Proof.RegisterEventsRule : Prop :=
  (∀ (s : State) (a c r : Nat) (v : DWord), s.liveCtx a = true → s.liveCtx c = true → 1 ≤ r → r ≤ 0x1D → r ≠ 0x14 → r ≠ 0x0F → r ≠ 0x10 →
    r ≠ 0x04 → r ≠ 0x05 → r ≠ 0x06 → r ≠ 0x07 → r ≠ 0x0C → writeBad s (0, 0) a c r v.toNat = none →
    exec (.registerWrite (.ctxReg a c r v)) s = .next (writeReg s (0, 0) c r v.toNat)) ∧
  (∀ (s : State) (a c : Nat) (v : DWord), s.liveCtx a = true → s.liveCtx c = true → a ≠ c → (s.getCtx a).auth = 1 →
    (s.getCtx a).part = (s.getCtx c).part → (v.toNat < 2 ^ 20 → writeBad s (0, 0) a c 0x16 v.toNat = none) ∧ (v.toNat < 2 ^ 8 → writeBad s (0, 0) a c 0x15 v.toNat = none) ∧
      (v.toNat < 2 ^ 16 → writeBad s (0, 0) a c 0x0B v.toNat = none)) ∧
  (∀ (s : State) (fn : Nat) (v : DWord), fn < 16 → s.boot.phase = .running → (s.ctl.funcs.find? (fun f => f.fn == fn)).isSome = true →
    let f := s.func fn
    (∃ t, exec (.registerWrite (.fnReg fn 0 v)) s = .next t ∧ t.mem = s.mem ∧ t.func fn = { f with cmdaddr := v &&& 0xFFFFFFFFFFFFFFC0 }) ∧
    (v.getLsbD 0 = true → f.go = false → ∃ t, exec (.registerWrite (.fnReg fn 8 v)) s = .next t ∧ t.mem = s.mem ∧ (t.func fn).go = true ∧
      (f.cmdaddr.toNat < 0x8000000000000 → (t.func fn).cmd = s.rdBytes (hostBase + f.cmdaddr.toNat / 64 * 64) 64)) ∧
    (∃ t, exec (.registerWrite (.fnReg fn 0x10 v)) s = .next t ∧ t.mem = s.mem ∧
      t.func fn = { f with resident := v.getLsbD 0, pending := f.pending && !v.getLsbD 1 }) ∧
    (∃ t, exec (.registerWrite (.fnReg fn 0x18 v)) s = .next t ∧ t.mem = s.mem ∧ t.func fn = { f with ilog := v &&& 0xFFFFFFFFFFFFFFC0 }))

/-- R214, R315: an eviction that is ready takes every block of its context off the cores and gives its act OK; with
hold the context is held, without it its blocks wait to be admitted again; one that is not ready waits. -/
def Sys2Proof.EvictionCompletesRule : Prop :=
  ∀ (s : State) (ctx : Nat) (hold : Bool) (p : SealPlan), (s.getCtx ctx).leave = some (.evict hold p) →
    (leaveReady s ctx (.evict hold p) (leavingBlocks s ctx (.evict hold p)) = false → exec (.evictionComplete ctx) s = .next s) ∧
    (leaveReady s ctx (.evict hold p) (leavingBlocks s ctx (.evict hold p)) = true →
      (∀ g ∈ s.groups, g.ctx = ctx → g.resident = true → ∃ b ∈ s.blocks, b.id = g.block ∧ b.placed = true ∧ b.ctx = ctx) →
      ∃ t, exec (.evictionComplete ctx) s = .next t ∧ (∀ g ∈ t.groups, g.ctx = ctx → g.resident = false) ∧ (t.getCtx ctx).leave = none ∧
        (t.getCtx ctx).run = (if hold then 3 else 1) ∧ (∀ a ∈ t.ctl.acts, a.ctx = ctx → a.done.isSome = true) ∧
        ∃ im ∈ t.vault, im.id = p.id ∧ im.kind = 0 ∧ im.groups.length = (s.groupsOfCtx ctx).length)

/-- All of the rules above: TranslationEventsRule, RegisterEventsRule, EvictionCompletesRule.
Where the rules leave a point open it states the model's reading (assumptions 20, 33, 35, 36 and 37). -/
def Obligations.RegisterAndEvictionEvents : Prop := Sys2Proof.TranslationEventsRule ∧ Sys2Proof.RegisterEventsRule ∧ Sys2Proof.EvictionCompletesRule

/-! ## Fabric and device time (R211, R212, R318, R320, R328 to R332) -/

/-- R211, R212, R318, R320, R328, R330: packets leave an outbox stamped with their send window and within their path's
budget, arrive in the receive buffer of their chip, commit, are discarded when late; a port faults after eight replays
and comes back trained. -/
def Sys2Proof.FabricPacketsRule : Prop :=
  (∀ (s : State) (port vc : Nat) (q : Port) (x : OutPacket) (xs : List OutPacket), s.port? port = some q → q.up = true → q.fault = false → q.disabled = false →
    q.outbox.filter (fun x => x.pkt.vc == vc) = x :: xs →
    (x.transit = true → ∃ t, exec (.packetSend port vc) s = .next t ∧ t.mem = s.mem ∧ t.fab.out = .packet port x.pkt :: s.fab.out ∧
      ∀ q', t.port? port = some q' → q'.outbox.filter (fun x => x.pkt.vc == vc) = xs ∧ q'.outbox.filter (fun x => x.pkt.vc != vc) = q.outbox.filter (fun x => x.pkt.vc != vc)) ∧
    (∀ pa, x.transit = false → s.path? x.pkt.job x.pkt.dst x.pkt.vc = some pa →
      let cost := 64 * (1 + (x.pkt.payload.length + 63) / 64)
      let used := if pa.win = s.now / 1024 then pa.used else 0
      (pa.budget < used + cost → exec (.packetSend port vc) s = .next s) ∧
      (used + cost ≤ pa.budget → holdsJob s x.pkt = false → ∃ t n, exec (.packetSend port vc) s = .next t ∧ t.mem = s.mem ∧
        t.fab.out = .packet port { x.pkt with sendWindow := s.now / 1024, seq := n } :: s.fab.out ∧
        ∃ pa', t.path? x.pkt.job x.pkt.dst x.pkt.vc = some pa' ∧ pa'.used = used + cost ∧ pa'.win = s.now / 1024 ∧ pa'.budget = pa.budget))) ∧
  (∀ (s : State) (port : Nat) (p : Packet) (q : Port) (c : Ctx), s.port? port = some q → q.up = true → q.fault = false → q.disabled = false →
    p.kind ≤ 1 → p.payload.length ≤ 4096 → p.vc ≤ 3 → jobCtx s p.job = some c → c.gangPos = p.dst → leavingSwitch s p.job = none →
    ∃ t q', exec (.packetDeliver (.arrive port p)) s = .next t ∧ t.mem = s.mem ∧ t.port? port = some q' ∧ q'.rx = q.rx ++ [⟨p, s.now / 1024, false⟩]) ∧
  (∀ (s s1 : State) (port vc : Nat) (q : Port) (x : RxPacket) (c : Ctx), s.port? port = some q → q.rx.find? (fun x => x.pkt.vc == vc) = some x →
    jobCtx s x.pkt.job = some c → c.run ≠ 6 → x.pkt.kind = 0 → packetWrite s c.num port x.pkt = (s1, some true) →
    ∃ t q', exec (.packetDeliver (.commit port vc)) s = .next t ∧ t.mem = s1.mem ∧ t.port? port = some q' ∧ q'.rx.length + 1 = q.rx.length ∧
      q'.rx.filter (fun x => x.pkt.vc != vc) = q.rx.filter (fun x => x.pkt.vc != vc)) ∧
  (∀ (s : State) (port vc idx : Nat) (q : Port) (x : OutPacket), s.port? port = some q → (q.outbox.filter (fun x => x.pkt.vc == vc))[idx]? = some x → x.transit = true →
    x.pkt.sendWindow + 3 ≤ s.now / 1024 →
    ∃ t q' r, exec (.packetDiscard port vc idx) s = .next t ∧ t.mem = s.mem ∧ t.port? port = some q' ∧ q'.outbox.length + 1 = q.outbox.length ∧
      t.fab.out = .packet port r :: s.fab.out ∧ r.job = 0 ∧ r.kind = 2 ∧ r.dst = x.pkt.dst ∧ r.vc = 3 ∧ r.seq = x.pkt.seq) ∧
  (∀ (s : State) (port : Nat) (q : Port), s.port? port = some q →
    (8 ≤ q.replays → q.fault = false → ∃ t, exec (.linkFault port) s = .next t ∧ t.port? port = some { q with fault := true, up := false, replays := 0 }) ∧
    (q.replays < 8 → exec (.linkFault port) s = .next s) ∧
    (q.up = true → q.fault = false → q.disabled = false →
      ∃ t, exec (.flitReplay port) s = .next t ∧ t.port? port = some { q with replays := min 8 (q.replays + 1) }) ∧
    (∀ delay, q.fault = true → ∃ t, exec (.linkRetrainComplete port delay) s = .next t ∧
      t.port? port = some { q with fault := false, up := true, replays := 0, delay := delay })) ∧
  (∀ (s : State) (job : Nat) (w : Switch), leavingSwitch s job = some w → w.window ≤ s.now / 1024 → s.now / 1024 < w.window + 4 →
    ∃ t, exec (.discardReportArrival job) s = .next t ∧ t.mem = s.mem ∧ ∀ x ∈ t.fab.switches, x.ctx = w.ctx → x.fabinc = true)

/-- R331, R332: the servo's offset is kept and its crossings of 50 ns timed; TIMEBAD is set after 100 ms beyond
50 ns and cleared after 100 ms within; reports of other packages hold or free the packets sent to them. -/
def Sys2Proof.FabricTimeRule : Prop :=
  (∀ (s : State) (p : PtpFacts), ∃ t, exec (.ptpMessage p) s = .next t ∧ t.mem = s.mem ∧ t.fab.offset = p.offset ∧ t.fab.ptpLocked = true ∧
    t.fab.beyond50 = (if 50 < p.offset.natAbs then some (s.fab.beyond50.getD s.now) else none) ∧
    t.fab.within50 = (if 50 < p.offset.natAbs then none else some (s.fab.within50.getD s.now)) ∧
    (decide (100 < s.fab.offset.natAbs) = decide (100 < p.offset.natAbs) → t.fab.out = s.fab.out) ∧
    (decide (100 < s.fab.offset.natAbs) ≠ decide (100 < p.offset.natAbs) → ∀ q ∈ s.fab.ports, q.up = true → q.fault = false → q.disabled = false →
      OutMsg.offset q.port (decide (100 < p.offset.natAbs)) ∈ t.fab.out)) ∧
  (∀ (s : State) (pos : Nat) (b : Bool), ∃ t, exec (.offsetReport pos b) s = .next t ∧ t.mem = s.mem ∧ (pos ∈ t.fab.peerHold ↔ b = true) ∧
    ∀ x, x ≠ pos → (x ∈ t.fab.peerHold ↔ x ∈ s.fab.peerHold)) ∧
  (∀ (s : State), ∃ t, exec .offsetReportSend s = .next t ∧ t.mem = s.mem ∧ t.fab.lastReport = s.now ∧
    ∀ q ∈ s.fab.ports, q.up = true → q.fault = false → q.disabled = false → OutMsg.offset q.port (decide (100 < s.fab.offset.natAbs)) ∈ t.fab.out) ∧
  (∀ (s : State) (b : Nat), s.fab.beyond50 = some b → b + 100000000 ≤ s.now → (∀ f ∈ s.ctl.funcs, f.timebad = false) →
    ∃ t, exec .timebadSet s = .next t ∧ ∀ f ∈ t.ctl.funcs, f.timebad = true) ∧
  (∀ (s : State) (b : Nat), s.fab.within50 = some b → b + 100000000 ≤ s.now →
    ∃ t, exec .timebadClear s = .next t ∧ t.mem = s.mem ∧ ∀ f ∈ t.ctl.funcs, f.timebad = false)

/-- Both of the rules above: FabricPacketsRule, FabricTimeRule.
Where the rules leave a point open it states the model's reading (assumptions 9, 30, 59 and 60). -/
def Obligations.FabricEvents : Prop := Sys2Proof.FabricPacketsRule ∧ Sys2Proof.FabricTimeRule

/-- R320, R321: at the start of window W the job's groups halt and the receive buffers are swept of its packets; at the
end of W the image's header is fixed and its chunks take the next seal counters; at the end of W + 3 the context is
switched out and its act done. A restore puts the image's packets back first in their buffers at its window, and the
job runs on from its window + 2 once they have all gone.
Where the rules leave a point open it states the model's reading (assumptions 20 and 40). -/
def Obligations.GangSwitchWindows : Prop :=
  (∀ (s : State) (ctx : Nat) (w : Switch), s.switch? ctx = some w → w.phase = .waiting → w.window * 1024 ≤ s.now → (s.getCtx ctx).gang = true →
    ∃ t w', exec (.gswitchWindowStart ctx) s = .next t ∧ t.mem = s.mem ∧ t.switch? ctx = some w' ∧ w'.phase = .swept ∧ (t.getCtx ctx).leave = some .switch ∧
      (∀ g ∈ t.groups, g.ctx = ctx → g.resident = true → g.halted = true) ∧ (∀ o ∈ t.mx.ops, o.ctx = ctx → o.stopped = true) ∧
      (∀ q ∈ t.fab.ports, ∀ x ∈ q.rx, x.pkt.job ≠ (s.getCtx ctx).jobTag) ∧
      (∀ q ∈ s.fab.ports, q.port < 12 → ∀ x ∈ q.rx, x.pkt.job = (s.getCtx ctx).jobTag → x.pkt.vc < 4 → (⟨q.port, x.pkt, x.win, 0⟩ : AreaRec) ∈ w'.clr)) ∧
  (∀ (s : State) (ctx : Nat) (w : Switch), s.switch? ctx = some w → w.phase = .swept → (w.window + 1) * 1024 ≤ s.now → switchQuiet s ctx = true →
    ∃ t w', exec (.gswitchSeal ctx) s = .next t ∧ t.switch? ctx = some w' ∧ w'.phase = .sealed ∧ w'.ctrbase = s.boot.sealCtr ∧
      w'.chunks = chunkCount w.plan.lens + 1 ∧ t.boot.sealCtr = s.boot.sealCtr + (chunkCount w.plan.lens + 1) + w.clrSize + w.wfSize ∧ w'.clr = w.clr ∧
      w'.header.length = 256) ∧
  (∀ (s : State) (ctx : Nat) (w : Switch), s.switch? ctx = some w → w.phase = .sealed → (w.window + 4) * 1024 ≤ s.now → s.ctx? ctx = some (s.getCtx ctx) →
    ∃ t im, exec (.gswitchWindfallSeal ctx) s = .next t ∧ t.switch? ctx = none ∧ (t.getCtx ctx).run = 6 ∧ (∀ g ∈ t.groups, g.ctx ≠ ctx) ∧
      im ∈ t.vault ∧ im.id = w.plan.id ∧ im.kind = 2 ∧ im.clr = w.clr ∧ im.wf = w.wf ∧ ∀ a ∈ t.ctl.acts, a.ctx = ctx → a.done.isSome = true) ∧
  (∀ (s : State) (ctx : Nat) (w : Switch) (im : Image), s.switch? ctx = some w → w.phase = .restoring → w.window * 1024 ≤ s.now → s.ctx? ctx = some (s.getCtx ctx) →
    s.vault.find? (fun x => x.id == w.imageId) = some im →
    ∃ t w', exec (.gswitchReinject ctx) s = .next t ∧ t.mem = s.mem ∧ t.switch? ctx = some w' ∧ w'.phase = .injected ∧ (t.getCtx ctx).run = 5 ∧
      t.groups.length = s.groups.length + im.groups.length ∧
      ∀ n q, s.port? n = some q → ∃ q', t.port? n = some q' ∧ q'.rx = ((im.clr ++ im.wf).filter (fun r => r.port == n)).map (fun r =>
        (⟨{ r.pkt with job := (s.getCtx ctx).jobTag }, r.window, true⟩ : RxPacket)) ++ q.rx) ∧
  (∀ (s : State) (ctx : Nat) (w : Switch), s.switch? ctx = some w → w.phase = .injected → (w.window + 2) * 1024 ≤ s.now → s.ctx? ctx = some (s.getCtx ctx) →
    (∀ q ∈ s.fab.ports, ∀ x ∈ q.rx, x.again = true → x.pkt.job ≠ (s.getCtx ctx).jobTag) →
    ∃ t, exec (.gswitchResume ctx) s = .next t ∧ t.switch? ctx = none ∧ (t.getCtx ctx).run = (if s.groups.any (fun g => g.ctx == ctx && g.resident) then 2 else 1) ∧
      (∀ g ∈ t.groups, g.ctx = ctx → g.resident = true → g.halted = false) ∧ ∀ a ∈ t.ctl.acts, a.ctx = ctx → a.done.isSome = true)

/-! ## Queues, packets and graphs (R267 to R276, R282 to R284) -/

/-- A queue whose head packet may be accepted now: the queue is open, its index has been read and has work, the packet's
bytes are `b` and in order, the packets before a barrier have completed, and RDIDX can be written. -/
structure Sys2Proof.AtPacket (s : State) (r : QRef) (q : Queue) (b : List Byte) (s3 : State) : Prop where
  ready : ∃ q0 s1 s2 pa ip, s.queue? r.part r.qid = some q0 ∧ queueOpen s q0 = true ∧ readIndex s q0 = s1 ∧ q0.now s1 = q ∧
    headPacket s1 q = .pkt s2 b ∧ q.xlate s2 (q.idx + 8) .write = (s3, .ok pa ip)
  here : q.part = r.part ∧ q.qid = r.qid
  active : q.state = 1
  work : q.wr ≠ q.rd
  index : q.rd < 2 ^ 64
  barrier : pktBarrier b = true → ∀ a ∈ q.accepted, a.done = true

/-- The packet has been accepted; `done`: it has completed. -/
def Sys2Proof.tookPacket (t : State) (q : Queue) (b : List Byte) (done : Bool) : Prop :=
  ∃ q' a, t.queue? q.part q.qid = some q' ∧ q'.rd = (q.rd + 1) % 2 ^ 64 ∧ a ∈ q'.accepted ∧ a.idx = q.rd ∧ a.type = leAt b 0 1 ∧ a.done = done

/-- The event that accepts a packet of a type. -/
def Sys2Proof.packetInstr (r : QRef) : Nat → Instr
  | 0 => .nopPacket r
  | 1 => .kernelPacket r
  | 2 => .graphPacket r
  | 3 => .waitallPacket r
  | 4 => .waitanyPacket r
  | 5 => .signalPacket r
  | 6 => .feedPacket r
  | 7 => .copyPacket r
  | _ => .fencePacket r

/-- R268, R271: packets are accepted in order, each by its type's event: NOP, SIGNAL, FEED and a FENCE whose stores are
visible complete at once; KERNEL hands its launch over, GRAPH begins a run, COPY is an engine operation, and the waits
keep their triples; a malformed packet puts the queue into the error state.
Where the rules leave a point open it states the model's reading (assumptions 9, 42, 43, 44 and 47). -/
def Obligations.QueuePackets : Prop :=
  (∀ (s s3 : State) (r : QRef) (q : Queue) (b : List Byte), AtPacket s r q b s3 →
    (leAt b 0 1 = 0 → ∃ t, exec (.nopPacket r) s = .next t ∧ tookPacket t q b true) ∧
    (leAt b 0 1 = 1 → ∃ t d, exec (.kernelPacket r) s = .next t ∧ tookPacket t q b d ∧
      (d = false → (∃ l ∈ t.ctl.launches, l.src = .packet q.part q.qid q.rd) ∨ ∃ l ∈ t.ctl.waitingHdr, l.src = .packet q.part q.qid q.rd)) ∧
    (leAt b 0 1 = 2 → ∀ s4 id, beginRun s3 q.ctx (leAt b 8 8) (leAt b 4 1 == 1) (leAt b 16 8) 0 none (.packet q.part q.qid q.rd) = .began s4 id →
      ∃ t d, exec (.graphPacket r) s = .next t ∧ tookPacket t q b d) ∧
    (leAt b 0 1 = 3 ∨ leAt b 0 1 = 4 → ∀ s4 t' ts, xReadN q.xlate s3 (leAt b 8 8) (16 * leAt b 4 1) = (s4, .inr t') → triplesOf (leAt b 4 1) t' = .inr ts →
      ∃ t d, exec (if leAt b 0 1 = 3 then .waitallPacket r else .waitanyPacket r) s = .next t ∧ tookPacket t q b d ∧
        (d = false → ∃ q' w, t.queue? q.part q.qid = some q' ∧ q'.wait = some w ∧ w.idx = q.rd ∧ w.triples = ts ∧ (w.all = true ↔ leAt b 0 1 = 3))) ∧
    (leAt b 0 1 = 5 → ∀ s4 g, wordUpdate q.xlate q.dirty s3 (leAt b 8 8) (leAt b 4 1 == 1) (leAt b 16 8) = .ok s4 g →
      ∃ t, exec (.signalPacket r) s = .next t ∧ tookPacket t q b true) ∧
    (leAt b 0 1 = 6 → ∀ f s4 d, s3.feed? q.ctx (leAt b 16 2) = some f → f.recs.length < f.cap → xReadN q.xlate s3 (leAt b 8 8) 64 = (s4, .inr d) →
      ∃ t, exec (.feedPacket r) s = .next t ∧ tookPacket t q b true) ∧
    (leAt b 0 1 = 6 → ∀ f, s3.feed? q.ctx (leAt b 16 2) = some f → f.cap ≤ f.recs.length → exec (.feedPacket r) s = .next s3) ∧
    (leAt b 0 1 = 7 → (leAt b 24 4 = 0 → ∃ t, exec (.copyPacket r) s = .next t ∧ tookPacket t q b true) ∧
      (leAt b 24 4 ≠ 0 → ∃ t, exec (.copyPacket r) s = .next t ∧ tookPacket t q b false ∧
        ∃ o ∈ t.mx.ops, o.kind = .packet q.part q.qid q.rd ∧ o.ctx = q.ctx ∧ o.id = s3.nextId)) ∧
    (leAt b 0 1 = 8 → (q.gwct ≤ s3.now → ∃ t, exec (.fencePacket r) s = .next t ∧ tookPacket t q b true) ∧
      (s3.now < q.gwct → exec (.fencePacket r) s = .next s3))) ∧
  (∀ (s s1 s2 : State) (r : QRef) (q0 q : Queue) (ty n : Nat), ty ≤ 8 → s.queue? r.part r.qid = some q0 → queueOpen s q0 = true → readIndex s q0 = s1 →
    q0.now s1 = q → q.part = r.part → q.qid = r.qid → q.state = 1 → q.wr ≠ q.rd → headPacket s1 q = .bad s2 n →
    ∃ t q', exec (packetInstr r ty) s = .next t ∧ t.queue? r.part r.qid = some q' ∧ q'.state = 2 ∧ q'.rd = q.rd) ∧
  (∀ (s s1 : State) (r : QRef) (q : Queue) (w : WaitState) (i : Nat), s.queue? r.part r.qid = some q → q.part = r.part → q.qid = r.qid → q.slot.isSome = true →
    q.wait = some w → (q.pasidv = true → ∀ d ∈ s.ctl.draining, d.1 ≠ q.pasid) → w.all = true ∨ w.result = 0 →
    (waitHolds s q w = (s1, true, i) → ∃ t q', exec (.waitPoll r) s = .next t ∧ t.mem = s1.mem ∧ t.queue? r.part r.qid = some q' ∧ q'.wait = none ∧
      ∀ a ∈ q'.accepted, a.idx = w.idx → a.done = true) ∧
    (waitHolds s q w = (s1, false, i) → exec (.waitPoll r) s = .next s1)) ∧
  (∀ (s : State) (r : QRef) (q : Queue) (a : Accepted) (idx : Nat), s.queue? r.part r.qid = some q → q.part = r.part → q.qid = r.qid →
    q.accepted.find? (fun a => a.idx == idx && a.done) = some a →
    ∃ t q', exec (.packetComplete r idx) s = .next t ∧ t.queue? r.part r.qid = some q' ∧ (∀ x, x ∈ q'.accepted ↔ x ∈ q.accepted ∧ x ≠ a) ∧
      (a.intr = true → (s.func (s.getCtx q.ctx).part).resident = true → OutMsg.msix (s.getCtx q.ctx).part q.vec ∈ t.fab.out))

/-- R270, R272, R275: a wake of a queue is taken when the context's last one is 200 ns old, else its queue is flagged
and the event counted; the interval's end takes the first flagged queue; the mapping tick, the wait quantum and the watch
list map queues with pending wakes; a drained queue is freed. -/
def Sys2Proof.QueueWakesRule : Prop :=
  (∀ (s : State) (r : QRef) (q : Queue), s.queue? r.part r.qid = some q → q.part = r.part → q.qid = r.qid → q.state < 2 → s.ctx? q.ctx = some (s.getCtx q.ctx) →
    ((∀ x, (s.getCtx q.ctx).lastWake = some x → x + 200 ≤ s.now) → (s.getCtx q.ctx).flagged = [] →
      ∃ t, exec (.doorbellWrite r) s = .next t ∧ (t.getCtx q.ctx).lastWake = some s.now) ∧
    ((∃ x, (s.getCtx q.ctx).lastWake = some x ∧ s.now < x + 200) → q.again = true → exec (.doorbellWrite r) s = .next s) ∧
    ((∃ x, (s.getCtx q.ctx).lastWake = some x ∧ s.now < x + 200) → q.again = false →
      ∃ t q', exec (.doorbellWrite r) s = .next t ∧ t.mem = s.mem ∧ t.queue? r.part r.qid = some q' ∧ q'.again = true ∧
        (t.getCtx q.ctx).flagged = (s.getCtx q.ctx).flagged ++ [r.qid] ∧
        (t.getCtx q.ctx).counters.get 0x12 0 = ((s.getCtx q.ctx).counters.get 0x12 0 + 1) % 2 ^ 64)) ∧
  (∀ (s : State) (ctx qid x : Nat) (rest : List Nat) (q : Queue), s.ctx? ctx = some (s.getCtx ctx) → (s.getCtx ctx).flagged = qid :: rest →
    (s.getCtx ctx).lastWake = some x → x + 200 ≤ s.now → s.queue? (s.getCtx ctx).part qid = some q → q.part = (s.getCtx ctx).part → q.qid = qid → q.ctx = ctx →
    ∃ t q', exec (.wakeIntervalEnd ctx) s = .next t ∧ (t.getCtx ctx).flagged = rest ∧ (t.getCtx ctx).lastWake = some s.now ∧
      t.queue? (s.getCtx ctx).part qid = some q' ∧ q'.again = false) ∧
  (∀ (s : State), s.ctl.mapTicks < s.now / 100000 →
    (pendingWakes s = [] → exec .mapTick s = .next { s with ctl := { s.ctl with mapTicks := s.now / 100000 } }) ∧
    (∀ q, pendingWakes s = [q] → mayMap s q = true → ∃ t q', exec .mapTick s = .next t ∧ t.ctl.mapTicks = s.now / 100000 ∧
      t.queue? q.part q.qid = some q' ∧ q'.slot.isSome = true)) ∧
  (∀ (s : State) (r : QRef) (q w : Queue), s.queue? r.part r.qid = some q → q.part = r.part → q.qid = r.qid →
    (quantumOver s q = false → exec (.waitQuantum r) s = .next s) ∧
    (quantumOver s q = true → pendingWakes s = [w] → (w.part, w.qid) ≠ (q.part, q.qid) → q ∈ victimsFor s w →
      ∃ t q' w', exec (.waitQuantum r) s = .next t ∧ t.queue? r.part r.qid = some q' ∧ q'.slot = none ∧ t.queue? w.part w.qid = some w' ∧ w'.slot.isSome = true)) ∧
  (∀ (s : State), (∀ q ∈ s.ctl.queues, q.wait = none ∨ (q.watch = false ∧ q.state ≠ 3)) → exec .watchListEval s = .next s) ∧
  (∀ (s s1 : State) (q : Queue) (w : WaitState) (i : Nat), s.ctl.queues = [q] → q.wait = some w → q.watch = true → q.state = 1 → q.slot = none →
    waitHolds s q w = (s1, true, i) → ∃ t q', exec .watchListEval s = .next t ∧ t.queue? q.part q.qid = some q' ∧ q'.watch = false ∧
      (q'.slot.isSome = true ∨ q'.pwake.isSome = true)) ∧
  (∀ (s : State) (r : QRef) (q : Queue), s.queue? r.part r.qid = some q → q.part = r.part → q.qid = r.qid → q.state = 3 →
    (q.accepted = [] → ∃ t, exec (.queueDrained r) s = .next t ∧ t.mem = s.mem ∧ t.queue? r.part r.qid = none) ∧
    (q.accepted ≠ [] → exec (.queueDrained r) s = .next s))

/-- R283, R284: a kernel node whose launch is over completes; the run of a graph whose nodes are all done ends with its
completion word and leaves its record. -/
def Sys2Proof.GraphRunsRule : Prop :=
  (∀ (s : State) (id i : Nat) (r : Run) (n : Node), s.ctl.heldRuns = [] → s.run? id = some r → r.id = id → r.nodes[i]? = some n → n.inRun = true → n.st = .running →
    n.kind = 1 → (∀ x ∈ r.nodes, x.inRun = true → x.st = .waiting → x.pred ≠ 0) →
    (launchGone s id i = true → ∃ t r' n', exec (.graphNodeComplete id i) s = .next t ∧ t.run? id = some r' ∧ r'.nodes[i]? = some n' ∧ n'.st = .done) ∧
    (launchGone s id i = false → exec (.graphNodeComplete id i) s = .next s)) ∧
  (∀ (s s1 : State) (id : Nat) (r : Run), s.ctl.heldRuns = [] → s.run? id = some r → r.id = id → r.parent = none → r.status = 0 →
    (∀ n ∈ r.nodes, n.inRun = true → n.st = .done) → (∀ x ∈ s.ctl.runs, ∀ n ∈ x.nodes, n.want = false) →
    completionWord s (.control id) r.ctx r.doneaddr r.donetag 0 = (s1, true) →
    ∃ t, exec (.graphRunEnd id) s = .next t ∧ t.mem = s1.mem ∧ t.run? id = none)

/-- Both of the rules above: QueueWakesRule, GraphRunsRule.
Where the rules leave a point open it states the model's reading (assumptions 9, 45, 46 and 48). -/
def Obligations.QueueWakesAndGraphs : Prop := Sys2Proof.QueueWakesRule ∧ Sys2Proof.GraphRunsRule

/-! ## Metering, power, resets and start-up (R120, R266, R279 to R281, R333 to R338) -/

/-- R120, R266, R279 to R281, R337: every microsecond a bucket gains its rate up to 1,024 times it and pays what was used; a
slice ends after CX.SLICE; the scrub, the checkpoint and the mismatch of the pair are noted, and a second mismatch within
1 ms resets the device. The power manager's rise and fall of levels is the model's reading (assumption 74).
Where the rules leave a point open it states the model's reading (assumptions 50, 51, 52, 53 and 54). -/
def Obligations.MeteringAndPower : Prop :=
  (∀ (b : Bucket) (used : Nat), b.rate ≠ 0x3FFFFF → b.pend = none → b.level ≤ 1024 * (b.rate : Int) →
    (b.tick used).level = max (-2 ^ 39) (min (1024 * (b.rate : Int)) (b.level + b.rate) - used) ∧ (b.tick used).rate = b.rate ∧ (b.tick used).used = 0) ∧
  (∀ (b : Bucket) (used r : Nat) (l : Int), b.pend = some (r, l) → b.tick used = { b with rate := r, level := l, pend := none }.tick used) ∧
  (∀ (s : State), (s.now / 1000 ≤ s.ctl.ticks → exec .bucketTick s = .next s) ∧
    (s.ctl.ticks < s.now / 1000 → ∃ t, exec .bucketTick s = .next t ∧ t.ctl.ticks = s.ctl.ticks + 1)) ∧
  (∀ (s : State) (c : Ctx), s.ctl.ticks < s.now / 1000 → s.ctxs = [c] → c.run = 1 ∨ c.run = 2 → c.bkt.length = 3 →
    (∀ i < 2, ∀ b, b = (c.bkt.getD i default).tick (c.bkt.getD i default).used → b.rate = 0x3FFFFF ∨ 0 < b.level) → (c.bkt.getD 2 default).rate = 0x3FFFFF →
    (c.bkt.getD 2 default).pend = none →
    ∃ t c', exec .bucketTick s = .next t ∧ t.mem = s.mem ∧ t.ctxs = [c'] ∧ c'.run = c.run ∧
      ∀ i < 2, c'.bkt.getD i default = (c.bkt.getD i default).tick (c.bkt.getD i default).used) ∧
  (∀ (s : State) (ctx x : Nat), (s.getCtx ctx).sliceStart = some x → (s.getCtx ctx).run = 2 → (s.getCtx ctx).leave = none → (s.getCtx ctx).slice.toNat % 2 ^ 20 ≠ 0 →
    (x + (s.getCtx ctx).slice.toNat % 2 ^ 20 * 1000 ≤ s.now → ∃ t, exec (.sliceEnd ctx) s = .next t ∧ (t.getCtx ctx).sliceStart = some s.now) ∧
    (s.now < x + (s.getCtx ctx).slice.toNat % 2 ^ 20 * 1000 → exec (.sliceEnd ctx) s = .next s)) ∧
  (∀ (s : State) (core : Nat), exec (.eccScrub core) s = .next { s with coreScrub := s.coreScrub.put core s.now }) ∧
  (∀ (s : State), (s.ctl.checkpoint + 10000 ≤ s.now → exec .heartwoodCheckpoint s = .next { s with ctl := { s.ctl with checkpoint := s.now } }) ∧
    (s.now < s.ctl.checkpoint + 10000 → exec .heartwoodCheckpoint s = .next s)) ∧
  (∀ (s : State), ((∀ x, s.ctl.mismatch = some x → x + 1000000 ≤ s.now) →
      ∃ t, exec .heartwoodMismatch s = .next t ∧ t.ctl.mismatch = some s.now ∧ t.ctl.ctlFaults = s.ctl.ctlFaults + 1 ∧ t.groups.length = s.groups.length) ∧
    ((∃ x, s.ctl.mismatch = some x ∧ s.now < x + 1000000) → ∃ t, exec .heartwoodMismatch s = .next t ∧ t.boot.phase = .off ∧ t.ctxs = [] ∧ t.groups = [])) ∧
  (∀ (s : State) (p : PowerFacts), s.ctl.powerLevel ≤ 3 →
    (p.hot105 = true → ∃ t, exec (.powerManagerTick p) s = .next t ∧ t.ctl.powerLevel = 3) ∧
    (s.ctl.powerLevel = 0 → p.hot105 = false → 96 < p.percent ∨ p.hot95 = true → ∃ t, exec (.powerManagerTick p) s = .next t ∧ t.ctl.powerLevel = 1) ∧
    (s.ctl.powerLevel = 0 → p.hot105 = false → p.percent ≤ 96 → p.hot95 = false →
      ∃ t, exec (.powerManagerTick p) s = .next t ∧ t.mem = s.mem ∧ t.ctl.powerLevel = 0))

/-- R333 to R335, R338: a core reset ends the groups of its core and scrubs its banked store, a die reset destroys the
contexts on the die, a device reset every context; power-good runs the start-up steps and, all passing, leaves the operator
of partition 0 and the device auditor, else a recovering device.
Where the rules leave a point open it states the model's reading (assumptions 55, 56 and 57). -/
def Obligations.ResetsAndStart : Prop :=
  (∀ (s : State) (core : Nat), ∃ t, exec (.coreControlError core) s = .next t ∧
    (∀ gid g, t.group? gid = some g → g.core = core → g.resident = true → g.liveLanes = 0) ∧
    ∀ b ∈ t.blocks, b.core = core → b.placed = true → ∀ i < b.size, b.data.get? i = some (some 0)) ∧
  (∀ (s : State) (die c : Nat) (i : Instr), i = .dieControlError die ∨ i = .dieOvertemp die →
    (3 < die → exec i s = .next s) ∧
    (die ≤ 3 → s.liveCtx c = true → onDie s die c = true → ∃ t, exec i s = .next t ∧ (t.getCtx c).run = 7)) ∧
  (∀ (s : State), ∃ t, exec .firmwareWatchdog s = .next t ∧ t.boot.phase = .off ∧ t.boot.sessions = 0 ∧ t.ctxs = [] ∧ t.groups = [] ∧ t.ctl.queues = [] ∧
    t.ctl.keySlots = [] ∧ t.ctl.seals = [] ∧ t.now = s.now ∧ t.boot.cfg = s.boot.cfg ∧ t.boot.fuse = s.boot.fuse) ∧
  (∀ (s : State) (f : BootFacts), s.boot.phase ≠ .off → exec (.powerGood f) s = .next s) ∧
  (∀ (s : State) (f : BootFacts), s.boot.phase = .off → f.manifestOk = false → ∃ t, exec (.powerGood f) s = .next t ∧ t.boot.phase = .recovery ∧ t.ctxs = s.ctxs) ∧
  (∀ (s : State) (f : BootFacts), s.boot.phase = .off → s.boot.variants = [0, 0, 0, 0] → f.manifestOk = true → f.configOk = true → f.slotAOk = true →
    s.boot.fuse ≤ f.slotASvn → f.badClusters = [] → f.memFail = 0 → f.cxlOk = true → f.badPorts = [] → f.controlOk = true →
    ∃ t c0 c1, exec (.powerGood f) s = .next t ∧ t.boot.phase = .running ∧ t.boot.variants = [0, 0, 0, 0] ∧ t.boot.rate = 0 ∧ t.boot.clusters = s.boot.cfg.clusters ∧
      t.boot.starts = s.boot.starts + 1 ∧ s.boot.sealBlock * 2 ^ 32 ≤ t.boot.sealCtr ∧ s.boot.sealCtr ≤ t.boot.sealCtr ∧
      t.ctx? 0 = some c0 ∧ c0.auth = 1 ∧ c0.part = 0 ∧ c0.run = 1 ∧ t.ctx? 1 = some c1 ∧ c1.auth = 3 ∧ c1.audscope = 0xFFFF ∧ c1.run = 1)

/-! ## Commands of a function (R287, R288, R291, R327, R330, R331, R338) -/

/-- A function has a command record whose OP, reserved bytes and rights are in order. -/
structure Sys2Proof.CmdAt (s : State) (fn op : Nat) : Prop where
  go : (s.func fn).go = true
  fn' : fn < 16
  running : s.boot.phase = .running
  len : (s.func fn).cmd.length = 64
  op' : leAt (s.func fn).cmd 0 1 = op
  zero : allZero (s.func fn).cmd 1 3 = true
  pf : 8 ≤ op → fn = 0

/-- The command has completed with a status. -/
def Sys2Proof.cmdDone (t : State) (fn st : Nat) : Prop :=
  (t.func fn).go = false ∧ (t.func fn).cmdstat = BitVec.ofNat 32 (st * 65536)

/-- R271, R272, R274, R327: QCREATE makes a queue of a live context with RDIDX equal to the WRIDX it reads; QRESET makes an
idle or failed queue idle at zero; QDESTROY drains a queue; QPIN pins within the pin limit. -/
def Sys2Proof.QueueCommandsRule : Prop :=
  ∀ (s : State) (fn : Nat),
    let c := (s.func fn).cmd
    (∀ s1 pa ip, CmdAt s fn 1 → allZero c 32 32 = true → leAt c 17 1 = 0 → leAt c 4 2 < 4096 → leAt c 6 2 < 4096 → leAt c 8 8 % 4096 = 0 → leAt c 8 8 < 2 ^ 56 →
      6 ≤ leAt c 16 1 → leAt c 16 1 ≤ 16 → leAt c 18 2 < 2048 → leAt c 20 4 < 2 ^ 20 → leAt c 24 8 % 8 = 0 → leAt c 24 8 < 2 ^ 56 →
      s.queue? fn (leAt c 4 2) = none → s.liveCtx (leAt c 6 2) = true → (s.getCtx (leAt c 6 2)).part = fn →
      translate s (.queue fn (leAt c 4 2)) controlCore (leAt c 6 2) (leAt c 24 8) .rmw = (s1, .ok pa ip) →
      ∃ t q, exec (.qcreate fn) s = .next t ∧ cmdDone t fn 0 ∧ t.queue? fn (leAt c 4 2) = some q ∧ q.ctx = leAt c 6 2 ∧ q.ring = leAt c 8 8 ∧ q.log2n = leAt c 16 1 ∧
        q.idx = leAt c 24 8 ∧ q.state = 0 ∧ q.rd = s1.rdNat pa 8 ∧ q.wr = s1.rdNat pa 8 ∧ q.pin = false ∧ q.accepted = [] ∧ q.slot = none) ∧
    (CmdAt s fn 1 → leAt c 17 1 ≥ 4 → exec (.qcreate fn) s = .next (finishCmd s fn 1)) ∧
    (∀ q s1 pa ip, CmdAt s fn 2 → allZero c 6 58 = true → leAt c 4 2 < 4096 → s.queue? fn (leAt c 4 2) = some q → q.part = fn → q.qid = leAt c 4 2 → q.pasidv = false →
      q.state = 2 ∨ q.state = 0 → q.accepted = [] → q.xlate s q.idx .rmw = (s1, .ok pa ip) →
      ∃ t q', exec (.qreset fn) s = .next t ∧ cmdDone t fn 0 ∧ t.queue? fn (leAt c 4 2) = some q' ∧ q'.state = 0 ∧ q'.rd = 0 ∧ q'.wr = 0 ∧ q'.wait = none) ∧
    (∀ q, CmdAt s fn 3 → allZero c 6 58 = true → leAt c 4 2 < 4096 → s.queue? fn (leAt c 4 2) = some q → q.part = fn → q.qid = leAt c 4 2 → q.state ≠ 3 →
      ∃ t q', exec (.qdestroy fn) s = .next t ∧ cmdDone t fn 0 ∧ t.mem = s.mem ∧ t.queue? fn (leAt c 4 2) = some q' ∧ q'.state = 3 ∧ q'.slot = none ∧
        q'.accepted = q.accepted) ∧
    (∀ q, CmdAt s fn 4 → allZero c 6 2 = true → allZero c 9 55 = true → leAt c 4 2 < 4096 → s.queue? fn (leAt c 4 2) = some q → q.part = fn → q.qid = leAt c 4 2 →
      q.state ≠ 3 → (leAt c 8 1 = 0 → ∃ t q', exec (.qpin fn) s = .next t ∧ cmdDone t fn 0 ∧ t.mem = s.mem ∧ t.queue? fn (leAt c 4 2) = some q' ∧ q'.pin = false) ∧
      (leAt c 8 1 = 1 → q.pin = false → pinRoom s fn = true → ∃ t q', exec (.qpin fn) s = .next t ∧ cmdDone t fn 0 ∧ t.queue? fn (leAt c 4 2) = some q' ∧ q'.pin = true) ∧
      (leAt c 8 1 = 1 → q.pin = false → pinRoom s fn = false → exec (.qpin fn) s = .next (finishCmd s fn 2)))

/-- R287, R288, R291, R327, R330, R331, R338: the other commands: a PASID drains and is released once nothing is
outstanding under it, an answered request leaves; a context joins a job; a path within the flight limit and the port's
budget is set; a partition gets its quotas and its operator; a reset resets; device time is set once, forwards. -/
def Sys2Proof.DeviceCommandsRule : Prop :=
  (∀ (s : State) (fn : Nat),
    let c := (s.func fn).cmd
    (CmdAt s fn 5 → allZero c 8 56 = true → leAt c 4 4 < 2 ^ 20 → (∀ d ∈ s.ctl.draining, d.1 ≠ leAt c 4 4) →
      ∃ t, exec (.pasiddrain fn) s = .next t ∧ cmdDone t fn 0 ∧ (leAt c 4 4, fn) ∈ t.ctl.draining ∧ ∀ e ∈ t.ctl.atc, e.1 ≠ leAt c 4 4) ∧
    (CmdAt s fn 5 → allZero c 8 56 = true → leAt c 4 4 < 2 ^ 20 → (∃ d ∈ s.ctl.draining, d.1 = leAt c 4 4) → exec (.pasiddrain fn) s = .next (finishCmd s fn 3)) ∧
    (CmdAt s fn 6 → allZero c 16 48 = true → leAt c 8 2 < leAt c 10 2 → leAt c 10 2 ≤ 4096 → leAt c 12 4 ≠ 0 → s.timebad = false → s.liveCtx (leAt c 4 4) = true →
      (s.getCtx (leAt c 4 4)).part = fn → (s.getCtx (leAt c 4 4)).gang = false → jobCtx s (leAt c 12 4) = none →
      ∃ t x, exec (.gangjoin fn) s = .next t ∧ cmdDone t fn 0 ∧ t.mem = s.mem ∧ t.ctx? (leAt c 4 4) = some x ∧ x.gang = true ∧ x.gangPos = leAt c 8 2 ∧
        x.gangSize = leAt c 10 2 ∧ x.jobTag = leAt c 12 4) ∧
    (CmdAt s fn 6 → allZero c 16 48 = true → leAt c 8 2 < leAt c 10 2 → leAt c 10 2 ≤ 4096 → leAt c 12 4 ≠ 0 → s.timebad = true → exec (.gangjoin fn) s = .next (finishCmd s fn 5)) ∧
    (let ports := (List.range (leAt c 11 1)).map (fun i => leAt c (12 + i) 1)
     CmdAt s fn 7 → allZero c 24 40 = true → leAt c 4 4 ≠ 0 → leAt c 8 2 < 4096 → leAt c 10 1 ≤ 3 → 1 ≤ leAt c 11 1 → leAt c 11 1 ≤ 8 → (∀ p ∈ ports, p < 12) → s.timebad = false →
      (700 < flightTime s ports → exec (.pathset fn) s = .next (finishCmd s fn 5)) ∧
      (flightTime s ports ≤ 700 → 256000 < portBudget s (ports.headD 0) (leAt c 4 4) (leAt c 8 2) (leAt c 10 1) + leAt c 20 4 → exec (.pathset fn) s = .next (finishCmd s fn 4)) ∧
      (flightTime s ports ≤ 700 → portBudget s (ports.headD 0) (leAt c 4 4) (leAt c 8 2) (leAt c 10 1) + leAt c 20 4 ≤ 256000 →
        ∃ t pa, exec (.pathset fn) s = .next t ∧ cmdDone t fn 0 ∧ t.mem = s.mem ∧ t.path? (leAt c 4 4) (leAt c 8 2) (leAt c 10 1) = some pa ∧ pa.ports = ports ∧
          pa.budget = leAt c 20 4)) ∧
    (∀ n, CmdAt s 0 8 → fn = 0 → 1 ≤ leAt c 4 1 → leAt c 4 1 ≤ 15 → allZero c 5 3 = true → allZero c 17 3 = true → allZero c 53 1 = true → allZero c 56 8 = true →
      BitVec.ofNat 72 (leAt c 8 9) ≠ 0 → 1 ≤ leAt c 52 1 → leAt c 54 2 ≤ 4096 → (∀ p ∈ s.ctl.partitions, p.part = 0) → leAt c 52 1 ≤ 126 →
      (∀ x ∈ s.ctxs, x.part ≠ leAt c 4 1) → n < 4096 → s.liveCtx n = false → (∀ m < n, s.liveCtx m = true) →
      ∃ t x p, exec (.partset 0) s = .next t ∧ cmdDone t 0 0 ∧ t.ctx? n = some x ∧ x.auth = 1 ∧ x.part = leAt c 4 1 ∧ x.run = 1 ∧ p ∈ t.ctl.partitions ∧
        p.part = leAt c 4 1 ∧ p.clusters = BitVec.ofNat 72 (leAt c 8 9) ∧ p.channels = BitVec.ofNat 256 (leAt c 20 32) ∧ p.slots = leAt c 52 1 ∧ p.keys = leAt c 54 2 ∧
        p.operator = n) ∧
    (CmdAt s 0 9 → fn = 0 → allZero c 6 2 = true → allZero c 10 54 = true →
      (leAt c 4 1 = 1 → leAt c 5 1 = 0 → leAt c 8 2 < 288 → exec (.resetCore 0) s = .next (finishCmd (coreReset s (leAt c 8 2)) 0 0)) ∧
      (leAt c 4 1 = 2 → leAt c 5 1 = 0 → leAt c 8 2 < 4 → exec (.resetDie 0) s = .next (finishCmd (dieReset s (leAt c 8 2)) 0 0)) ∧
      (leAt c 4 1 = 3 → leAt c 5 1 ≤ 1 → leAt c 8 2 = 0 →
        ∃ t, exec (.resetDevice 0) s = .next t ∧ cmdDone t 0 0 ∧ t.boot.phase = .off ∧ t.ctxs = [] ∧ t.groups = [] ∧ (leAt c 5 1 = 1 → t.boot.variants = [0, 0, 0, 0]))) ∧
    (CmdAt s 0 10 → fn = 0 → allZero c 4 4 = true → allZero c 16 48 = true → s.fab.ptpLocked = false → s.fab.timesetDone = false →
      (s.now ≤ leAt c 8 8 → ∃ t, exec (.timeset 0) s = .next t ∧ cmdDone t 0 0 ∧ t.mem = s.mem ∧ t.now = leAt c 8 8 ∧ t.fab.timesetDone = true) ∧
      (leAt c 8 8 < s.now → exec (.timeset 0) s = .next (finishCmd s 0 1)))) ∧
  (∀ (s : State) (op : Nat), 8 ≤ op → op ≤ 10 → ∀ fn, fn ≠ 0 → fn < 16 → (s.func fn).go = true → s.boot.phase = .running → (s.func fn).cmd.length = 64 →
    leAt (s.func fn).cmd 0 1 = op → op ≠ 9 → exec (if op = 8 then .partset fn else .timeset fn) s = .next (finishCmd s fn 6)) ∧
  (∀ (s : State) (p : Nat), (∃ d ∈ s.ctl.draining, d.1 = p) →
    ((∀ e ∈ s.ctl.atsReqs, e.1 ≠ p) → (∀ o ∈ s.mx.ops, o.pasid s ≠ some p) →
      ∃ t, exec (.pasidRelease p) s = .next t ∧ ∀ d ∈ t.ctl.draining, d.1 ≠ p) ∧
    ((∃ e ∈ s.ctl.atsReqs, e.1 = p) → exec (.pasidRelease p) s = .next s)) ∧
  (∀ (s : State) (p : Nat) (e : Nat × Nat), s.ctl.atsReqs.find? (fun e => e.1 == p) = some e →
    ∃ t, exec (.atsTranslationResponse p) s = .next t ∧ t.mem = s.mem ∧ t.ctl.atsReqs.length + 1 = s.ctl.atsReqs.length ∧
      ((∀ d ∈ s.ctl.draining, d.1 ≠ p) → e ∈ t.ctl.atc) ∧ ((∃ d ∈ s.ctl.draining, d.1 = p) → t.ctl.atc = s.ctl.atc))

/-- Both of the rules above: QueueCommandsRule, DeviceCommandsRule.
Where the rules leave a point open it states the model's reading (assumptions 49, 61, 62, 63, 68 and 71). -/
def Obligations.Commands : Prop := Sys2Proof.QueueCommandsRule ∧ Sys2Proof.DeviceCommandsRule

/-! ## Attestation and host memory (R19, R210, R215, R333, R336) -/

/-- R210, R215, R315, R333, R336: the responder answers each SPDM request, a recovering device only measurements, and
opens at most 64 sessions; MEAS7 is extended; a signed update of a recovering device enters slot A and MEAS6; a key reaches
a shell only within a session. Host accesses of device memory read and write its home; a host's own write breaks the
copies.
Where the rules leave a point open it states the model's reading (assumptions 39, 58, 64 and 65). -/
def Obligations.AttestationAndHost : Prop :=
  (∀ (s : State), s.boot.phase = .running →
    let said (t : State) (k : SpdmKind) (m : List (BitVec 512)) : Prop := t.fab.out = .spdm k (Config.spdmBytes s.fresh) m :: s.fab.out ∧ t.fresh = s.fresh + 1 ∧ t.mem = s.mem
    (∃ t, exec .getCertificate s = .next t ∧ said t .certificate []) ∧ (∃ t, exec .challenge s = .next t ∧ said t .challengeAuth s.boot.meas) ∧
    (∃ t, exec .getMeasurements s = .next t ∧ said t .measurements s.boot.meas) ∧
    (s.boot.sessions < 64 → ∃ t, exec .keyExchange s = .next t ∧ said t .keyExchange [] ∧ t.boot.sessions = s.boot.sessions + 1) ∧
    (64 ≤ s.boot.sessions → ∃ t, exec .keyExchange s = .next t ∧ said t .busy [] ∧ t.boot.sessions = s.boot.sessions) ∧
    (s.boot.sessions ≠ 0 → ∃ t, exec .finish s = .next t ∧ said t .finish []) ∧
    (∀ d, s.boot.meas.length = 8 → ∃ t, exec (.meas7Extend d) s = .next t ∧ said t .vendor [] ∧ t.boot.meas.getD 7 0 = Config.sha512 (s.boot.meas.getD 7 0) d ∧
      ∀ i < 7, t.boot.meas.getD i 0 = s.boot.meas.getD i 0)) ∧
  (∀ (s : State), s.boot.phase = .recovery →
    (∃ t, exec .getMeasurements s = .next t ∧ t.fab.out = .spdm .measurements (Config.spdmBytes s.fresh) s.boot.meas :: s.fab.out) ∧
    exec .getCertificate s = .next s ∧ exec .keyExchange s = .next s ∧
    (∀ svn d, s.boot.fuse ≤ svn → s.boot.meas.length = 8 → ∃ t, exec (.firmwareUpdate svn true d) s = .next t ∧ t.boot.slotA = svn ∧
      t.boot.meas.getD 6 0 = Config.sha512 (s.boot.meas.getD 6 0) d) ∧
    (∀ svn d, exec (.firmwareUpdate svn false d) s = .next s) ∧ (∀ svn d, svn < s.boot.fuse → exec (.firmwareUpdate svn true d) s = .next s)) ∧
  (∀ (s : State) (r : KeybindReq), (s.boot.sessions = 0 → exec (.keybindRequest r) s = .next s) ∧
    (s.boot.sessions ≠ 0 → s.ctx? r.shell = none → ∃ t, exec (.keybindRequest r) s = .next t ∧ t.fab.out = .keybind (2 * 65536) :: s.fab.out ∧ t.ctxs = s.ctxs) ∧
    (∀ c n, s.boot.sessions ≠ 0 → s.ctx? r.shell = some c → c.auth = 2 → c.claimed = false → c.run ≠ 7 → c.image = none → actBusy s r.shell = false → r.accept.toNat < 2 →
      (c.tenant = 0 ∨ c.tenant = r.tenant.toNat) → (∀ k ∈ s.ctl.keySlots, k.tenant ≠ r.tenant.toNat) → freeKeySlot s c.part = some n →
      ∃ t c' k, exec (.keybindRequest r) s = .next t ∧ t.ctx? r.shell = some c' ∧ c'.claimed = true ∧ c'.run = 1 ∧ c'.keySlot = some n ∧ k ∈ t.ctl.keySlots ∧ k.slot = n ∧
        k.tenant = r.tenant.toNat ∧ k.key = r.key ∧ k.bound = 1)) ∧
  (∀ (s : State) (addr : Nat) (data : List Byte), s.boot.phase = .running → data ≠ [] → addr + data.length ≤ 0x18000000000 →
    ((∀ i < data.length, s.vis.isOwned (sectorOf (addr + i)) = false) →
      (∃ t g, exec (.hostMemWrite addr data) s = .next t ∧ (∀ a, t.rdByte a = if addr ≤ a ∧ a < addr + data.length then data.getD (a - addr) 0 else s.rdByte a) ∧
         t.fab.out = .hostWriteDone addr g :: s.fab.out ∧ s.now ≤ g) ∧
      ∃ t, exec (.hostMemRead addr data.length) s = .next t ∧ t.mem = s.mem ∧ t.fab.out = .hostRead addr (s.rdBytes addr data.length) :: s.fab.out)) ∧
  (∀ (s : State) (addr : Nat) (data : List Byte), hostBase ≤ addr → data ≠ [] → addr + data.length ≤ 0x10000000000000 →
    ∃ t, exec (.hostSnoopInvalidate addr data) s = .next t ∧
      (∀ a, t.rdByte a = if addr ≤ a ∧ a < addr + data.length then data.getD (a - addr) 0 else s.rdByte a) ∧ t.fab.out = s.fab.out)

/-! ## The machine as a whole -/

/-- R32, R33, R36, R37, R47, R49: a word decodes to an instruction exactly when it is that instruction's own word and the
instruction is well formed. -/
def Obligations.DecodeEncode : Prop :=
  ∀ (w : DWord) (i : Instr), decode w = .ok i ↔ i.isSlot = true ∧ i.wellFormed = true ∧ encode i = w

/-- Memory keeps its canonical form over every step (the model's own invariant, assumption 5). -/
def Obligations.MemoryStaysCanonical : Prop :=
  ∀ (s t : State), MemInv s → step s = .next t → MemInv t

/-- R326, R331, R333: at reset no start-up has begun, device time is 0, no context, group, queue or partition exists, the
fabric's ports are down, the functions' registers are zero, and memory lists nothing, in its canonical form; the values that
no rule states are the model's (assumptions 1, 4 and 5). -/
def Obligations.ResetState : Prop :=
  State.reset.boot.phase = .off ∧ State.reset.boot.starts = 0 ∧ State.reset.boot.meas = List.replicate 8 0 ∧ State.reset.boot.variants = [0, 0, 0, 0] ∧
  State.reset.now = 0 ∧ State.reset.ctxs = [] ∧ State.reset.groups = [] ∧ State.reset.blocks = [] ∧ State.reset.ctl.queues = [] ∧ State.reset.ctl.partitions = [] ∧
  State.reset.ctl.keySlots = [] ∧ State.reset.ctl.seals = [] ∧ State.reset.ctl.powerLevel = 0 ∧ State.reset.mem = [] ∧ MemInv State.reset ∧
  (∀ p ∈ State.reset.fab.ports, p.up = false ∧ p.outbox = [] ∧ p.rx = []) ∧ State.reset.fab.ports.length = 12 ∧
  (∀ f ∈ State.reset.ctl.funcs, f.cmdaddr = 0 ∧ f.go = false ∧ f.cmdstat = 0 ∧ f.timebad = false ∧ f.ilog = 0) ∧ State.reset.ctl.funcs.length = 16

/-- R76, R98, R221: a step runs what the unit that issues stands at: the instruction that its fetched word decodes to, one
with a reserved field set included, as it reads it; and a turn that brings an event runs the event at its time.
Where the rules leave a point open it states the model's reading (assumptions 7 and 9). -/
def Obligations.StepRunsDecoded : Prop :=
  (∀ (s s1 : State) (gid e : Nat) (g : Group) (sp : Split) (c : Clause) (w : DWord) (i : Instr), s.agenda = [] → s.cur = some (.split gid e) →
    s.group? gid = some g → g.split? e = some sp → sp.st = .mid → sp.clause = some c → c.atHdr = false → g.resident = true → g.halted = false →
    splitReady s g e sp = true → fetchCode s g e (if c.handler then 0 else c.plane) (c.off + 8 * (c.slot + 1)) = (s1, .inr w) →
    decode w = .ok i ∨ decode w = .reserved i → step s = exec i s1) ∧
  (∀ (s s1 : State) (cl : Nat) (isSeq : Bool) (p : Prog) (c : Clause) (w : DWord) (i : Instr), s.agenda = [] → s.cur = some (if isSeq then .seq cl else .eng cl) →
    s.prog? cl isSeq = some p → p.live = true → p.stopped = false → stallStands s (.unit (if isSeq then .seq cl else .eng cl)) = none → p.park = none →
    p.clause = some c → fetchProg s p (c.off + 8 * (c.slot + 1)) = (s1, .inr w) → decode w = .ok i ∨ decode w = .reserved i → step s = exec i s1) ∧
  (∀ (s : State) (t : Turn) (ts : List Turn) (i : Instr), s.agenda = t :: ts → t.who = .event i → i.isSlot = false → i ≠ .clauseIssue →
    step s = exec i (dropTlbs (pass { s with agenda := ts } t.dt t.cyc) t.drops))

/-- Words that the spec writes out, or that stand for its encodings, decode to their instructions (R33, R36, R37, R105,
R133). -/
def Obligations.DecodeWords : Prop :=
  decode 0x0000060080400380 = .ok (.iadd .wrap ⟨⟨false, false, 3⟩, .v 1, .v 2, .v 0, ⟨false, 7⟩, 0, false, 0, 0⟩) ∧
  decode 0x15001C0012345678 = .ok (.movi ⟨⟨false, false, 7⟩, .v 0, 0x12345678⟩) ∧
  decode 0x2300120080401BB4 = .ok (.ffma ⟨⟨false, false, 9⟩, .v 1, .v 2, .v 3, ⟨false, 7⟩, 1, true, 1, 0⟩) ∧
  decode 0x60001002800E0204 = .ok (.ldb .w32 ⟨⟨false, false, 8⟩, .v 5, .v 0, ⟨false, 7⟩, 16, 2, false⟩) ∧
  decode 0x73000C01008FFFEA = .ok (.ldt ⟨⟨false, false, 6⟩, .v 2, .v 4, ⟨false, 7⟩, 0xFFF, 5, false⟩) ∧
  decode 0x83000DC800000380 = .ok (.time ⟨⟨false, false, 6⟩, .const 0x10, .v 0, .v 0, ⟨false, 7⟩, 0, false, 0, 0⟩) ∧
  decode 0xD100014380000000 = .ok (.tret ⟨⟨false, false, 0⟩, .scalar 7, 0, 0⟩) ∧
  decode 0xD00001C880210000 = .ok (.trap ⟨⟨false, false, 0⟩, .const 0x11, 0x42, 0⟩) ∧
  decode 0xD3071F4300018000 = .ok (.wrsr ⟨false, .const 0x0F, .scalar 6, 3, 0⟩) ∧
  decode 0xF008000000000000 = .tagInSlot

/-- R12, R49, R51: a slot of a split is checked in the order class, place, reserved fields, rights, latches, bounds; the
first that fails traps the whole split with its cause, before any effect.
Where the rules leave a point open it states the model's reading (assumption 15). -/
def Obligations.SlotChecks : Prop :=
  (∀ (s : State) (k : SlotCtx) (i : Instr) (cause : Cause) (sub : Nat), i.isSlot = true → (∀ f, i ≠ .bsad4 f) → slotCtx s i = some k → isSplit k.u = true →
    slotChecks k (s.getCtx k.ctx).auth = some (cause, sub) →
    exec i s = .next (settleAll (trapWhole (entered s k) k.gid k.entry false (enteredCtx s k).c (encode i)
      ⟨sub, (lanesOf k.sp.mask).map (fun l => (l, ⟨cause, 0, 0⟩))⟩) k.gid)) ∧
  (∀ (k : SlotCtx) (auth : Nat),
    let cls := k.classFits && classOk k.cls k.sp.handler.isSome k.i
    let plc := slotOk k.i k.c.slot k.c.count
    let res := k.i.wellFormed && classFieldsOk k.cls k.i
    let rts := rightsOk auth (majorOf (encode k.i))
    let lat := latchOk k.i k.g.hdr.width k.c.slot
    let bnd := boundsOk k.i k.g.hdr.width k.g.vregs (if k.isProg then 32 else 128)
    (cls = false → slotChecks k auth = some (.illegalOp, 1)) ∧ (cls = true → plc = false → slotChecks k auth = some (.illegalOp, 4)) ∧
    (cls = true → plc = true → res = false → slotChecks k auth = some (.reservedField, 0)) ∧
    (cls = true → plc = true → res = true → rts = false → slotChecks k auth = some (.rights, 0)) ∧
    (cls = true → plc = true → res = true → rts = true → lat = false → slotChecks k auth = some (.latchOrder, 0)) ∧
    (cls = true → plc = true → res = true → rts = true → lat = true → bnd = false → slotChecks k auth = some (.bounds, 0)) ∧
    (cls = true → plc = true → res = true → rts = true → lat = true → bnd = true → slotChecks k auth = none)) ∧
  (∀ m, (m = 0xD4 ∨ m = 0xD5 ∨ m = 0xD9 → rightsOk 1 m = true ∧ rightsOk 2 m = false ∧ rightsOk 3 m = false) ∧
    (m = 0xD6 → rightsOk 3 m = true ∧ rightsOk 1 m = false ∧ rightsOk 2 m = false))

/-- R297, R299 to R301: a trap whose frame can be written saves the split's state in the frame, bytes laid out by R300, and
makes it a handler split at CX.TVEC with the FMT in force; its registers, its lanes and the other splits stay. A trap of a
handler split, with CX.TVEC off or a frame that does not fit is a double fault: it ends the group and sets DFAULT.
Where the rules leave a point open it states the model's reading (assumptions 13 and 72). -/
def Obligations.TrapEntry : Prop :=
  (∀ (s s1 : State) (gid entry : Nat) (hdr : Bool) (c : Clause) (w : DWord) (t : Trap) (g : Group) (sp : Split) (l0 l : List (Nat × Nat × Nat × List Byte)),
    s.group? gid = some g → g.split? entry = some sp → entry < g.splits.length → g.latchesDue c.issue = false →
    let fi : FrameInfo := { trap := t, hdr := hdr, word := w, hword := c.hdr, own := if hdr then 1 else 2, splitsv := false, code := t.code }
    frameWay s gid entry sp (frameBytes g sp entry c fi) = (s1, .ready l0) → s1.group? gid = some g →
    (frameWay s1 gid entry sp (frameBytes g sp entry c fi)).2 = .ready l →
    ∃ g' sp', (trapWhole s gid entry hdr c w t).mem = s1.mem ∧ (trapWhole s gid entry hdr c w t).group? gid = some g' ∧ g'.split? entry = some sp' ∧
      sp'.handler = some entry ∧ sp'.offset = (((s1.getCtx g.ctx).tvec.toNat / 8 * 8 : Nat) : Int) ∧ sp'.fmt = c.fmt ∧ sp'.sfmt = sp.sfmt ∧ sp'.mask = sp.mask ∧
      sp'.st = .ready ∧ sp'.clause = none ∧ sp'.maxgwct = sp.maxgwct ∧ sp'.lastsend = sp.lastsend ∧ (∀ e, e ≠ entry → g'.split? e = g.split? e) ∧
      g'.queue = g.queue ++ pieceEntries (((lanesOf sp.mask).head?).getD 0) g.issues l ∧ g'.win = g.win ∧ g'.sreg = g.sreg ∧ g'.preds = g.preds ∧
      g'.kregs = g.kregs ∧ g'.fregs = g.fregs ∧ g'.fpstat = g.fpstat ∧ g'.wdog = 0) ∧
  (∀ (g : Group) (sp : Split) (entry : Nat) (c : Clause) (fi : FrameInfo), g.hdr.width ≤ 128 → fi.code < 256 → fi.trap.sub < 256 →
    let b := frameBytes g sp entry c fi
    b.length = 4096 + 256 * g.hdr.width ∧ leAt b 0 2 = 1 ∧ leAt b 2 1 = fi.code ∧ leAt b 3 1 = fi.trap.sub ∧ leAt b 8 4 = (BitVec.ofInt 32 sp.offset).toNat ∧
    leAt b 0xC 4 = c.fmt.toNat ∧ leAt b 0x14 4 = sp.sfmt.toNat ∧ leAt b 0x18 8 = fi.word.toNat ∧ leAt b 0x20 8 = fi.hword.toNat ∧ leAt b 0x28 16 = sp.mask.toNat ∧
    leAt b 0x38 16 = c.sub.toNat ∧ leAt b 0x48 16 = fi.trap.mask.toNat ∧
    ∀ l < g.hdr.width, sp.mask.getLsbD l = false → leAt b (0x400 + 16 * l) 16 = 0) ∧
  (∀ (s : State) (gid entry : Nat) (hdr : Bool) (c : Clause) (w : DWord) (t : Trap) (g : Group) (sp : Split), s.group? gid = some g → g.split? entry = some sp →
    g.latchesDue c.issue = false → sp.handler.isSome = true ∨ (s.getCtx g.ctx).tvec.getLsbD 0 = false ∨ g.spillLim < (entry + 1) * (4096 + 256 * g.hdr.width) →
    trapWhole s gid entry hdr c w t = doubleFault s gid 5) ∧
  (∀ (s : State) (gid n : Nat) (g : Group), s.group? gid = some g → s.ctx? g.ctx = some (s.getCtx g.ctx) →
    ∃ g', (doubleFault s gid n).group? gid = some g' ∧ g'.live = [] ∧ g'.liveLanes = 0 ∧ ((doubleFault s gid n).getCtx g.ctx).dfault = true ∧
      ((doubleFault s gid n).getCtx g.ctx).counters.get 0x0A 0 = ((s.getCtx g.ctx).counters.get 0x0A 0 + 1) % 2 ^ 64)

/-- R33 to R35, R39, R45: a slot's results go to its destination and its latch and nowhere else: a V destination takes each
executing lane's words, a scalar the lowest lane's, a predicate each lane's truth, P7 and a suppressed destination nothing;
memory, the other registers, the other lanes, splits, groups and contexts stay; then the split stands at the next slot. -/
def Obligations.SlotResults : Prop :=
  (∀ (s : State) (k : SlotCtx) (r : List (Nat × List Word)) (g : Group), isSplit k.u = true → s.group? k.gid = some g → g.hdr.width ≠ 0 →
    (∀ x ∈ r, x.1 < g.hdr.width) → (r.map (fun x => x.1)).Nodup →
    ∃ g', (written s k r).group? k.gid = some g' ∧ (written s k r).mem = s.mem ∧ (written s k r).ctxs = s.ctxs ∧ (written s k r).vis = s.vis ∧
      (∀ gid, gid ≠ k.gid → (written s k r).group? gid = s.group? gid) ∧
      g'.kregs = g.kregs ∧ g'.fregs = g.fregs ∧ g'.exited = g.exited ∧ g'.depth = g.depth ∧ g'.plane = g.plane ∧ g'.queue = g.queue ∧ g'.loads = g.loads ∧
      g'.fpstat = g.fpstat ∧ g'.spillBase = g.spillBase ∧ g'.spillLim = g.spillLim ∧ (∀ e, e ≠ k.entry → g'.split? e = g.split? e) ∧
      (resDst k.i = none → g'.win = g.win ∧ g'.sreg = g.sreg ∧ g'.preds = g.preds) ∧
      ∀ d, resDst k.i = some d →
        (d.sup = true → g'.win = g.win ∧ g'.sreg = g.sreg ∧ g'.preds = g.preds) ∧
        (d.sup = false → predDst k.i = true → g'.win = g.win ∧ g'.sreg = g.sreg ∧ (∀ n, n ≠ d.idx.toNat → g'.pred n = g.pred n) ∧
          (d.idx.toNat = 7 → g'.preds = g.preds) ∧ (d.idx.toNat ≠ 7 → ∀ l < 128, (g'.pred d.idx.toNat).getLsbD l =
            (match r.find? (fun x => x.1 == l) with | some x => x.2.headD 0 != 0 | none => (g.pred d.idx.toNat).getLsbD l))) ∧
        (d.sup = false → predDst k.i = false → d.kind = true → g'.win = g.win ∧ g'.preds = g.preds ∧
          ∀ n, g'.sregOf n = (match (lowestLane k.ex).bind (fun l => r.find? (fun x => x.1 == l)) with
            | some x => if d.idx.toNat ≤ n ∧ n < d.idx.toNat + x.2.length then x.2.getD (n - d.idx.toNat) 0 else g.sregOf n
            | none => g.sregOf n)) ∧
        (d.sup = false → predDst k.i = false → d.kind = false → g'.sreg = g.sreg ∧ g'.preds = g.preds ∧
          ∀ n l, l < g.hdr.width → g'.vreg n l = (match r.find? (fun x => x.1 == l) with
            | some x => if d.idx.toNat ≤ n ∧ n < d.idx.toNat + x.2.length then x.2.getD (n - d.idx.toNat) 0 else g.vreg n l
            | none => g.vreg n l))) ∧
  (∀ (s : State) (k : SlotCtx) (g : Group) (sp : Split) (c : Clause), isSplit k.u = true → s.group? k.gid = some g → g.split? k.entry = some sp →
    k.entry < g.splits.length → sp.clause = some c → c.slot < hdrCount c.hdr →
    ∃ g' sp' c', (moved s k).group? k.gid = some g' ∧ (moved s k).mem = s.mem ∧ (moved s k).ctxs = s.ctxs ∧ g'.win = g.win ∧ g'.sreg = g.sreg ∧ g'.preds = g.preds ∧
      g'.kregs = g.kregs ∧ g'.fregs = g.fregs ∧ g'.queue = g.queue ∧ (∀ e, e ≠ k.entry → g'.split? e = g.split? e) ∧ g'.split? k.entry = some sp' ∧
      sp'.mask = sp.mask ∧ sp'.offset = sp.offset ∧ sp'.fmt = sp.fmt ∧ sp'.clause = some c' ∧ c'.slot = c.slot + 1 ∧ c'.hdr = c.hdr ∧ c'.latch = c.latch ∧ c'.fmt = c.fmt)

/-- The instructions whose whole effect is one word a lane, and the flags of CX.FPSTAT. -/
def Sys2Proof.resultOnly : Instr → Bool
  | .icmp _ _ | .movi _ | .plop _ | .dot4 _ _ | .redux _ _ => true
  | i => (intForm i).isSome || (fieldForm i).isSome || (floatResult i).isSome

/-- The frame of the instructions of R127 to R131, R136, R146 to R167 and R169, before the last slot of a clause: their
destination, their latch, the counter of issues and, for the floating ones, CX.FPSTAT are all that changes. No byte of
memory, no other register, predicate, lane, split, group, block, queue or register of a context changes.
Where the rules leave a point open it states the model's reading (assumptions 16 and 19). -/
def Obligations.ResultsAreAllThatChanges : Prop :=
  ∀ (s t : State) (k : SlotCtx) (i : Instr) (d : Dst), resultOnly i = true → resDst i = some d → AtSlot s i k → isSplit k.u = true → indexFits i k s →
    (fmtXTrap k.c.fmt = true → ∀ f, floatResult i = some f → ∀ l ∈ k.lanes, (f k s l).flags % 4 = 0) →
    k.c.slot < hdrCount k.c.hdr → k.entry < k.g.splits.length → k.g.hdr.width ≠ 0 → (∀ l ∈ k.lanes, l < k.g.hdr.width) → exec i s = .next t →
    (∀ a, t.rdByte a = s.rdByte a) ∧ t.mem = s.mem ∧ t.vis = s.vis ∧ t.blocks = s.blocks ∧ t.feeds = s.feeds ∧ t.mx = s.mx ∧ t.ctl = s.ctl ∧ t.fab = s.fab ∧
    t.boot = s.boot ∧ t.vault = s.vault ∧ t.now = s.now ∧ (∀ n, t.getCtx n = { s.getCtx n with counters := (t.getCtx n).counters }) ∧
    (∀ gid, gid ≠ k.gid → t.group? gid = s.group? gid) ∧
    ∃ g', t.group? k.gid = some g' ∧ g'.kregs = k.g.kregs ∧ g'.fregs = k.g.fregs ∧ g'.exited = k.g.exited ∧ g'.depth = k.g.depth ∧ g'.plane = k.g.plane ∧
      g'.queue = k.g.queue ∧ g'.loads = k.g.loads ∧ g'.spillBase = k.g.spillBase ∧ g'.spillLim = k.g.spillLim ∧ g'.maxDepth = k.g.maxDepth ∧
      g'.burst = k.g.burst ∧ g'.wdog = k.g.wdog ∧ (floatResult i = none → g'.fpstat = k.g.fpstat) ∧
      (∀ n l, l < k.g.hdr.width → d.sup = true ∨ d.kind = true ∨ n ≠ d.idx.toNat ∨ l ∉ k.lanes → g'.vreg n l = k.g.vreg n l) ∧
      (∀ n, d.sup = true ∨ d.kind = false ∨ predDst i = true ∨ n ≠ d.idx.toNat → g'.sregOf n = k.g.sregOf n) ∧
      (∀ n, d.sup = true ∨ predDst i = false ∨ n ≠ d.idx.toNat ∨ n = 7 → g'.pred n = k.g.pred n) ∧
      (∀ e, e ≠ k.entry → g'.split? e = k.g.split? e) ∧
      ∃ sp', g'.split? k.entry = some sp' ∧ sp'.mask = k.sp.mask ∧ sp'.offset = k.sp.offset ∧ sp'.fmt = k.sp.fmt ∧ sp'.sfmt = k.sp.sfmt ∧
        sp'.handler = k.sp.handler
end

