-- ==== Sys2Proof/Laws/Encoding.lean ====
section
/-! SUPPORT. Fields of an encoded word: each field read back is the field written (R32 to R37, R39). -/

namespace Sys2Proof

theorem Src.ofBits_bits (x : Src) : Src.ofBits x.bits = x := by
  cases x <;> (rename_i i; unfold Src.bits Src.ofBits) <;> (repeat rw [BitVec.getLsbD_append]) <;>
    (repeat rw [BitVec.extractLsb'_append_eq_of_add_le (by decide)]) <;> simp

theorem Dst.ofBits_bits (x : Dst) : Dst.ofBits x.bits = x := by
  unfold Dst.bits Dst.ofBits
  repeat rw [BitVec.getLsbD_append]
  repeat rw [BitVec.extractLsb'_append_eq_of_add_le (by decide)]
  simp

theorem Prd.ofBits_bits (x : Prd) : Prd.ofBits x.bits = x := by
  unfold Prd.bits Prd.ofBits
  repeat rw [BitVec.getLsbD_append]
  repeat rw [BitVec.extractLsb'_append_eq_of_add_le (by decide)]
  simp

/-! ## Format V -/

theorem majorOf_packV (maj mn : Nat) (f : VForm) : majorOf (packV maj mn f) = maj % 256 := by
  unfold majorOf fld packV
  rw [BitVec.extractLsb'_append_eq_of_le (by decide)]
  simp

theorem minorOf_packV (maj mn : Nat) (f : VForm) : minorOf (packV maj mn f) = mn % 16 := by
  unfold minorOf fld packV
  rw [BitVec.extractLsb'_append_eq_of_add_le (by decide), BitVec.extractLsb'_append_eq_of_le (by decide)]
  simp

theorem vOf_packV (maj mn : Nat) (f : VForm) : vOf (packV maj mn f) = f := by
  unfold vOf packV fld
  repeat first
    | rw [BitVec.extractLsb'_append_eq_of_add_le (by decide)]
    | rw [BitVec.extractLsb'_append_eq_of_le (by decide)]
  repeat rw [BitVec.getLsbD_append]
  simp [Src.ofBits_bits, Dst.ofBits_bits, Prd.ofBits_bits]

/-! ## Format I -/

theorem majorOf_packI (maj mn : Nat) (f : IForm) : majorOf (packI maj mn f) = maj % 256 := by
  unfold majorOf fld packI
  rw [BitVec.extractLsb'_append_eq_of_le (by decide)]
  simp

theorem minorI_packI (maj mn : Nat) (f : IForm) : minorI (packI maj mn f) = mn % 8 := by
  unfold minorI fld packI
  rw [BitVec.extractLsb'_append_eq_of_add_le (by decide), BitVec.extractLsb'_append_eq_of_le (by decide)]
  simp

theorem iOf_packI (maj mn : Nat) (f : IForm) : iOf (packI maj mn f) = f := by
  unfold iOf packI fld
  repeat first
    | rw [BitVec.extractLsb'_append_eq_of_add_le (by decide)]
    | rw [BitVec.extractLsb'_append_eq_of_le (by decide)]
  repeat rw [BitVec.getLsbD_append]
  simp [Src.ofBits_bits, Dst.ofBits_bits]

/-! ## Format M -/

theorem majorOf_packM (maj mn : Nat) (f : MForm) : majorOf (packM maj mn f) = maj % 256 := by
  unfold majorOf fld packM
  rw [BitVec.extractLsb'_append_eq_of_le (by decide)]
  simp

theorem minorOf_packM (maj mn : Nat) (f : MForm) : minorOf (packM maj mn f) = mn % 16 := by
  unfold minorOf fld packM
  rw [BitVec.extractLsb'_append_eq_of_add_le (by decide), BitVec.extractLsb'_append_eq_of_le (by decide)]
  simp

theorem mOf_packM (maj mn : Nat) (f : MForm) : mOf (packM maj mn f) = f := by
  unfold mOf packM fld
  repeat first
    | rw [BitVec.extractLsb'_append_eq_of_add_le (by decide)]
    | rw [BitVec.extractLsb'_append_eq_of_le (by decide)]
  repeat rw [BitVec.getLsbD_append]
  simp [Src.ofBits_bits, Dst.ofBits_bits, Prd.ofBits_bits]

/-! ## Format S -/

theorem majorOf_packS (maj mn : Nat) (f : SForm) : majorOf (packS maj mn f) = maj % 256 := by
  unfold majorOf fld packS
  rw [BitVec.extractLsb'_append_eq_of_le (by decide)]
  simp

theorem minorOf_packS (maj mn : Nat) (f : SForm) : minorOf (packS maj mn f) = mn % 16 := by
  unfold minorOf fld packS
  rw [BitVec.extractLsb'_append_eq_of_add_le (by decide), BitVec.extractLsb'_append_eq_of_le (by decide)]
  simp

theorem sOf_packS (maj mn : Nat) (f : SForm) : sOf (packS maj mn f) = f := by
  unfold sOf packS fld
  repeat first
    | rw [BitVec.extractLsb'_append_eq_of_add_le (by decide)]
    | rw [BitVec.extractLsb'_append_eq_of_le (by decide)]
  repeat rw [BitVec.getLsbD_append]
  simp [Src.ofBits_bits, Prd.ofBits_bits]

/-! ## Format B -/

theorem majorOf_packB (maj mn : Nat) (f : BForm) : majorOf (packB maj mn f) = maj % 256 := by
  unfold majorOf fld packB
  rw [BitVec.extractLsb'_append_eq_of_le (by decide)]
  simp

theorem minorOf_packB (maj mn : Nat) (f : BForm) : minorOf (packB maj mn f) = mn % 16 := by
  unfold minorOf fld packB
  rw [BitVec.extractLsb'_append_eq_of_add_le (by decide), BitVec.extractLsb'_append_eq_of_le (by decide)]
  simp

theorem bOf_packB (maj mn : Nat) (f : BForm) : bOf (packB maj mn f) = f := by
  unfold bOf packB fld
  repeat first
    | rw [BitVec.extractLsb'_append_eq_of_add_le (by decide)]
    | rw [BitVec.extractLsb'_append_eq_of_le (by decide)]
  repeat rw [BitVec.getLsbD_append]
  simp [Src.ofBits_bits, Prd.ofBits_bits]

/-! ## Format X -/

theorem majorOf_packX (maj mn : Nat) (f : XForm) : majorOf (packX maj mn f) = maj % 256 := by
  unfold majorOf fld packX
  rw [BitVec.extractLsb'_append_eq_of_le (by decide)]
  simp

theorem minorOf_packX (maj mn : Nat) (f : XForm) : minorOf (packX maj mn f) = mn % 16 := by
  unfold minorOf fld packX
  rw [BitVec.extractLsb'_append_eq_of_add_le (by decide), BitVec.extractLsb'_append_eq_of_le (by decide)]
  simp

theorem xOf_packX (maj mn : Nat) (f : XForm) : xOf (packX maj mn f) = f := by
  unfold xOf packX fld
  repeat first
    | rw [BitVec.extractLsb'_append_eq_of_add_le (by decide)]
    | rw [BitVec.extractLsb'_append_eq_of_le (by decide)]
  repeat rw [BitVec.getLsbD_append]
  simp [Src.ofBits_bits]

/-! ## Format Y -/

theorem majorOf_packY (maj mn : Nat) (f : YForm) : majorOf (packY maj mn f) = maj % 256 := by
  unfold majorOf fld packY
  rw [BitVec.extractLsb'_append_eq_of_le (by decide)]
  simp

theorem minorOf_packY (maj mn : Nat) (f : YForm) : minorOf (packY maj mn f) = mn % 16 := by
  unfold minorOf fld packY
  rw [BitVec.extractLsb'_append_eq_of_add_le (by decide), BitVec.extractLsb'_append_eq_of_le (by decide)]
  simp

theorem yOf_packY (maj mn : Nat) (f : YForm) : yOf (packY maj mn f) = f := by
  unfold yOf packY fld
  repeat first
    | rw [BitVec.extractLsb'_append_eq_of_add_le (by decide)]
    | rw [BitVec.extractLsb'_append_eq_of_le (by decide)]
  repeat rw [BitVec.getLsbD_append]
  simp [Src.ofBits_bits, Dst.ofBits_bits]

/-! ## Format YW -/

theorem majorOf_packYW (maj mn : Nat) (f : YWForm) : majorOf (packYW maj mn f) = maj % 256 := by
  unfold majorOf fld packYW
  rw [BitVec.extractLsb'_append_eq_of_le (by decide)]
  simp

theorem minorOf_packYW (maj mn : Nat) (f : YWForm) : minorOf (packYW maj mn f) = mn % 16 := by
  unfold minorOf fld packYW
  rw [BitVec.extractLsb'_append_eq_of_add_le (by decide), BitVec.extractLsb'_append_eq_of_le (by decide)]
  simp

theorem ywOf_packYW (maj mn : Nat) (f : YWForm) : ywOf (packYW maj mn f) = f := by
  unfold ywOf packYW fld
  repeat first
    | rw [BitVec.extractLsb'_append_eq_of_add_le (by decide)]
    | rw [BitVec.extractLsb'_append_eq_of_le (by decide)]
  repeat rw [BitVec.getLsbD_append]
  simp [Src.ofBits_bits]

end Sys2Proof
end

