-- ==== Sys2Proof/Laws/State.lean ====
section
/-! SUPPORT. What each update of State leaves alone and what it changes: one lemma per field, by rfl, and the
lookups that go with them. -/

namespace Sys2Proof.Machine

/-! ## State.updCtx -/

@[simp] theorem State.updCtx_agenda (s : State) (n : Nat) (f : Ctx → Ctx) : (s.updCtx n f).agenda = s.agenda := rfl
@[simp] theorem State.updCtx_cur (s : State) (n : Nat) (f : Ctx → Ctx) : (s.updCtx n f).cur = s.cur := rfl
@[simp] theorem State.updCtx_fresh (s : State) (n : Nat) (f : Ctx → Ctx) : (s.updCtx n f).fresh = s.fresh := rfl
@[simp] theorem State.updCtx_nextId (s : State) (n : Nat) (f : Ctx → Ctx) : (s.updCtx n f).nextId = s.nextId := rfl
@[simp] theorem State.updCtx_now (s : State) (n : Nat) (f : Ctx → Ctx) : (s.updCtx n f).now = s.now := rfl
@[simp] theorem State.updCtx_cyc (s : State) (n : Nat) (f : Ctx → Ctx) : (s.updCtx n f).cyc = s.cyc := rfl
@[simp] theorem State.updCtx_mem (s : State) (n : Nat) (f : Ctx → Ctx) : (s.updCtx n f).mem = s.mem := rfl
@[simp] theorem State.updCtx_vis (s : State) (n : Nat) (f : Ctx → Ctx) : (s.updCtx n f).vis = s.vis := rfl
@[simp] theorem State.updCtx_groups (s : State) (n : Nat) (f : Ctx → Ctx) : (s.updCtx n f).groups = s.groups := rfl
@[simp] theorem State.updCtx_blocks (s : State) (n : Nat) (f : Ctx → Ctx) : (s.updCtx n f).blocks = s.blocks := rfl
@[simp] theorem State.updCtx_seeds (s : State) (n : Nat) (f : Ctx → Ctx) : (s.updCtx n f).seeds = s.seeds := rfl
@[simp] theorem State.updCtx_formed (s : State) (n : Nat) (f : Ctx → Ctx) : (s.updCtx n f).formed = s.formed := rfl
@[simp] theorem State.updCtx_feeds (s : State) (n : Nat) (f : Ctx → Ctx) : (s.updCtx n f).feeds = s.feeds := rfl
@[simp] theorem State.updCtx_coreAdmit (s : State) (n : Nat) (f : Ctx → Ctx) : (s.updCtx n f).coreAdmit = s.coreAdmit := rfl
@[simp] theorem State.updCtx_coreScrub (s : State) (n : Nat) (f : Ctx → Ctx) : (s.updCtx n f).coreScrub = s.coreScrub := rfl
@[simp] theorem State.updCtx_mx (s : State) (n : Nat) (f : Ctx → Ctx) : (s.updCtx n f).mx = s.mx := rfl
@[simp] theorem State.updCtx_ctl (s : State) (n : Nat) (f : Ctx → Ctx) : (s.updCtx n f).ctl = s.ctl := rfl
@[simp] theorem State.updCtx_vault (s : State) (n : Nat) (f : Ctx → Ctx) : (s.updCtx n f).vault = s.vault := rfl
@[simp] theorem State.updCtx_fab (s : State) (n : Nat) (f : Ctx → Ctx) : (s.updCtx n f).fab = s.fab := rfl
@[simp] theorem State.updCtx_boot (s : State) (n : Nat) (f : Ctx → Ctx) : (s.updCtx n f).boot = s.boot := rfl

/-! ## State.updGroup -/

@[simp] theorem State.updGroup_agenda (s : State) (g : Nat) (f : Group → Group) : (s.updGroup g f).agenda = s.agenda := rfl
@[simp] theorem State.updGroup_cur (s : State) (g : Nat) (f : Group → Group) : (s.updGroup g f).cur = s.cur := rfl
@[simp] theorem State.updGroup_fresh (s : State) (g : Nat) (f : Group → Group) : (s.updGroup g f).fresh = s.fresh := rfl
@[simp] theorem State.updGroup_nextId (s : State) (g : Nat) (f : Group → Group) : (s.updGroup g f).nextId = s.nextId := rfl
@[simp] theorem State.updGroup_now (s : State) (g : Nat) (f : Group → Group) : (s.updGroup g f).now = s.now := rfl
@[simp] theorem State.updGroup_cyc (s : State) (g : Nat) (f : Group → Group) : (s.updGroup g f).cyc = s.cyc := rfl
@[simp] theorem State.updGroup_mem (s : State) (g : Nat) (f : Group → Group) : (s.updGroup g f).mem = s.mem := rfl
@[simp] theorem State.updGroup_vis (s : State) (g : Nat) (f : Group → Group) : (s.updGroup g f).vis = s.vis := rfl
@[simp] theorem State.updGroup_blocks (s : State) (g : Nat) (f : Group → Group) : (s.updGroup g f).blocks = s.blocks := rfl
@[simp] theorem State.updGroup_seeds (s : State) (g : Nat) (f : Group → Group) : (s.updGroup g f).seeds = s.seeds := rfl
@[simp] theorem State.updGroup_formed (s : State) (g : Nat) (f : Group → Group) : (s.updGroup g f).formed = s.formed := rfl
@[simp] theorem State.updGroup_feeds (s : State) (g : Nat) (f : Group → Group) : (s.updGroup g f).feeds = s.feeds := rfl
@[simp] theorem State.updGroup_coreAdmit (s : State) (g : Nat) (f : Group → Group) : (s.updGroup g f).coreAdmit = s.coreAdmit := rfl
@[simp] theorem State.updGroup_coreScrub (s : State) (g : Nat) (f : Group → Group) : (s.updGroup g f).coreScrub = s.coreScrub := rfl
@[simp] theorem State.updGroup_ctxs (s : State) (g : Nat) (f : Group → Group) : (s.updGroup g f).ctxs = s.ctxs := rfl
@[simp] theorem State.updGroup_mx (s : State) (g : Nat) (f : Group → Group) : (s.updGroup g f).mx = s.mx := rfl
@[simp] theorem State.updGroup_ctl (s : State) (g : Nat) (f : Group → Group) : (s.updGroup g f).ctl = s.ctl := rfl
@[simp] theorem State.updGroup_vault (s : State) (g : Nat) (f : Group → Group) : (s.updGroup g f).vault = s.vault := rfl
@[simp] theorem State.updGroup_fab (s : State) (g : Nat) (f : Group → Group) : (s.updGroup g f).fab = s.fab := rfl
@[simp] theorem State.updGroup_boot (s : State) (g : Nat) (f : Group → Group) : (s.updGroup g f).boot = s.boot := rfl

/-! ## State.updBlock -/

@[simp] theorem State.updBlock_agenda (s : State) (b : Nat) (f : Block → Block) : (s.updBlock b f).agenda = s.agenda := rfl
@[simp] theorem State.updBlock_cur (s : State) (b : Nat) (f : Block → Block) : (s.updBlock b f).cur = s.cur := rfl
@[simp] theorem State.updBlock_fresh (s : State) (b : Nat) (f : Block → Block) : (s.updBlock b f).fresh = s.fresh := rfl
@[simp] theorem State.updBlock_nextId (s : State) (b : Nat) (f : Block → Block) : (s.updBlock b f).nextId = s.nextId := rfl
@[simp] theorem State.updBlock_now (s : State) (b : Nat) (f : Block → Block) : (s.updBlock b f).now = s.now := rfl
@[simp] theorem State.updBlock_cyc (s : State) (b : Nat) (f : Block → Block) : (s.updBlock b f).cyc = s.cyc := rfl
@[simp] theorem State.updBlock_mem (s : State) (b : Nat) (f : Block → Block) : (s.updBlock b f).mem = s.mem := rfl
@[simp] theorem State.updBlock_vis (s : State) (b : Nat) (f : Block → Block) : (s.updBlock b f).vis = s.vis := rfl
@[simp] theorem State.updBlock_groups (s : State) (b : Nat) (f : Block → Block) : (s.updBlock b f).groups = s.groups := rfl
@[simp] theorem State.updBlock_seeds (s : State) (b : Nat) (f : Block → Block) : (s.updBlock b f).seeds = s.seeds := rfl
@[simp] theorem State.updBlock_formed (s : State) (b : Nat) (f : Block → Block) : (s.updBlock b f).formed = s.formed := rfl
@[simp] theorem State.updBlock_feeds (s : State) (b : Nat) (f : Block → Block) : (s.updBlock b f).feeds = s.feeds := rfl
@[simp] theorem State.updBlock_coreAdmit (s : State) (b : Nat) (f : Block → Block) : (s.updBlock b f).coreAdmit = s.coreAdmit := rfl
@[simp] theorem State.updBlock_coreScrub (s : State) (b : Nat) (f : Block → Block) : (s.updBlock b f).coreScrub = s.coreScrub := rfl
@[simp] theorem State.updBlock_ctxs (s : State) (b : Nat) (f : Block → Block) : (s.updBlock b f).ctxs = s.ctxs := rfl
@[simp] theorem State.updBlock_mx (s : State) (b : Nat) (f : Block → Block) : (s.updBlock b f).mx = s.mx := rfl
@[simp] theorem State.updBlock_ctl (s : State) (b : Nat) (f : Block → Block) : (s.updBlock b f).ctl = s.ctl := rfl
@[simp] theorem State.updBlock_vault (s : State) (b : Nat) (f : Block → Block) : (s.updBlock b f).vault = s.vault := rfl
@[simp] theorem State.updBlock_fab (s : State) (b : Nat) (f : Block → Block) : (s.updBlock b f).fab = s.fab := rfl
@[simp] theorem State.updBlock_boot (s : State) (b : Nat) (f : Block → Block) : (s.updBlock b f).boot = s.boot := rfl

/-! ## State.updProg -/

@[simp] theorem State.updProg_agenda (s : State) (c : Nat) (q : Bool) (f : Prog → Prog) : (s.updProg c q f).agenda = s.agenda := rfl
@[simp] theorem State.updProg_cur (s : State) (c : Nat) (q : Bool) (f : Prog → Prog) : (s.updProg c q f).cur = s.cur := rfl
@[simp] theorem State.updProg_fresh (s : State) (c : Nat) (q : Bool) (f : Prog → Prog) : (s.updProg c q f).fresh = s.fresh := rfl
@[simp] theorem State.updProg_nextId (s : State) (c : Nat) (q : Bool) (f : Prog → Prog) : (s.updProg c q f).nextId = s.nextId := rfl
@[simp] theorem State.updProg_now (s : State) (c : Nat) (q : Bool) (f : Prog → Prog) : (s.updProg c q f).now = s.now := rfl
@[simp] theorem State.updProg_cyc (s : State) (c : Nat) (q : Bool) (f : Prog → Prog) : (s.updProg c q f).cyc = s.cyc := rfl
@[simp] theorem State.updProg_mem (s : State) (c : Nat) (q : Bool) (f : Prog → Prog) : (s.updProg c q f).mem = s.mem := rfl
@[simp] theorem State.updProg_vis (s : State) (c : Nat) (q : Bool) (f : Prog → Prog) : (s.updProg c q f).vis = s.vis := rfl
@[simp] theorem State.updProg_groups (s : State) (c : Nat) (q : Bool) (f : Prog → Prog) : (s.updProg c q f).groups = s.groups := rfl
@[simp] theorem State.updProg_blocks (s : State) (c : Nat) (q : Bool) (f : Prog → Prog) : (s.updProg c q f).blocks = s.blocks := rfl
@[simp] theorem State.updProg_seeds (s : State) (c : Nat) (q : Bool) (f : Prog → Prog) : (s.updProg c q f).seeds = s.seeds := rfl
@[simp] theorem State.updProg_formed (s : State) (c : Nat) (q : Bool) (f : Prog → Prog) : (s.updProg c q f).formed = s.formed := rfl
@[simp] theorem State.updProg_feeds (s : State) (c : Nat) (q : Bool) (f : Prog → Prog) : (s.updProg c q f).feeds = s.feeds := rfl
@[simp] theorem State.updProg_coreAdmit (s : State) (c : Nat) (q : Bool) (f : Prog → Prog) : (s.updProg c q f).coreAdmit = s.coreAdmit := rfl
@[simp] theorem State.updProg_coreScrub (s : State) (c : Nat) (q : Bool) (f : Prog → Prog) : (s.updProg c q f).coreScrub = s.coreScrub := rfl
@[simp] theorem State.updProg_ctxs (s : State) (c : Nat) (q : Bool) (f : Prog → Prog) : (s.updProg c q f).ctxs = s.ctxs := rfl
@[simp] theorem State.updProg_ctl (s : State) (c : Nat) (q : Bool) (f : Prog → Prog) : (s.updProg c q f).ctl = s.ctl := rfl
@[simp] theorem State.updProg_vault (s : State) (c : Nat) (q : Bool) (f : Prog → Prog) : (s.updProg c q f).vault = s.vault := rfl
@[simp] theorem State.updProg_fab (s : State) (c : Nat) (q : Bool) (f : Prog → Prog) : (s.updProg c q f).fab = s.fab := rfl
@[simp] theorem State.updProg_boot (s : State) (c : Nat) (q : Bool) (f : Prog → Prog) : (s.updProg c q f).boot = s.boot := rfl

/-! ## State.updOp -/

@[simp] theorem State.updOp_agenda (s : State) (i : Nat) (f : EOp → EOp) : (s.updOp i f).agenda = s.agenda := rfl
@[simp] theorem State.updOp_cur (s : State) (i : Nat) (f : EOp → EOp) : (s.updOp i f).cur = s.cur := rfl
@[simp] theorem State.updOp_fresh (s : State) (i : Nat) (f : EOp → EOp) : (s.updOp i f).fresh = s.fresh := rfl
@[simp] theorem State.updOp_nextId (s : State) (i : Nat) (f : EOp → EOp) : (s.updOp i f).nextId = s.nextId := rfl
@[simp] theorem State.updOp_now (s : State) (i : Nat) (f : EOp → EOp) : (s.updOp i f).now = s.now := rfl
@[simp] theorem State.updOp_cyc (s : State) (i : Nat) (f : EOp → EOp) : (s.updOp i f).cyc = s.cyc := rfl
@[simp] theorem State.updOp_mem (s : State) (i : Nat) (f : EOp → EOp) : (s.updOp i f).mem = s.mem := rfl
@[simp] theorem State.updOp_vis (s : State) (i : Nat) (f : EOp → EOp) : (s.updOp i f).vis = s.vis := rfl
@[simp] theorem State.updOp_groups (s : State) (i : Nat) (f : EOp → EOp) : (s.updOp i f).groups = s.groups := rfl
@[simp] theorem State.updOp_blocks (s : State) (i : Nat) (f : EOp → EOp) : (s.updOp i f).blocks = s.blocks := rfl
@[simp] theorem State.updOp_seeds (s : State) (i : Nat) (f : EOp → EOp) : (s.updOp i f).seeds = s.seeds := rfl
@[simp] theorem State.updOp_formed (s : State) (i : Nat) (f : EOp → EOp) : (s.updOp i f).formed = s.formed := rfl
@[simp] theorem State.updOp_feeds (s : State) (i : Nat) (f : EOp → EOp) : (s.updOp i f).feeds = s.feeds := rfl
@[simp] theorem State.updOp_coreAdmit (s : State) (i : Nat) (f : EOp → EOp) : (s.updOp i f).coreAdmit = s.coreAdmit := rfl
@[simp] theorem State.updOp_coreScrub (s : State) (i : Nat) (f : EOp → EOp) : (s.updOp i f).coreScrub = s.coreScrub := rfl
@[simp] theorem State.updOp_ctxs (s : State) (i : Nat) (f : EOp → EOp) : (s.updOp i f).ctxs = s.ctxs := rfl
@[simp] theorem State.updOp_ctl (s : State) (i : Nat) (f : EOp → EOp) : (s.updOp i f).ctl = s.ctl := rfl
@[simp] theorem State.updOp_vault (s : State) (i : Nat) (f : EOp → EOp) : (s.updOp i f).vault = s.vault := rfl
@[simp] theorem State.updOp_fab (s : State) (i : Nat) (f : EOp → EOp) : (s.updOp i f).fab = s.fab := rfl
@[simp] theorem State.updOp_boot (s : State) (i : Nat) (f : EOp → EOp) : (s.updOp i f).boot = s.boot := rfl

/-! ## State.updFork -/

@[simp] theorem State.updFork_agenda (s : State) (i : Nat) (f : ForkSet → ForkSet) : (s.updFork i f).agenda = s.agenda := rfl
@[simp] theorem State.updFork_cur (s : State) (i : Nat) (f : ForkSet → ForkSet) : (s.updFork i f).cur = s.cur := rfl
@[simp] theorem State.updFork_fresh (s : State) (i : Nat) (f : ForkSet → ForkSet) : (s.updFork i f).fresh = s.fresh := rfl
@[simp] theorem State.updFork_nextId (s : State) (i : Nat) (f : ForkSet → ForkSet) : (s.updFork i f).nextId = s.nextId := rfl
@[simp] theorem State.updFork_now (s : State) (i : Nat) (f : ForkSet → ForkSet) : (s.updFork i f).now = s.now := rfl
@[simp] theorem State.updFork_cyc (s : State) (i : Nat) (f : ForkSet → ForkSet) : (s.updFork i f).cyc = s.cyc := rfl
@[simp] theorem State.updFork_mem (s : State) (i : Nat) (f : ForkSet → ForkSet) : (s.updFork i f).mem = s.mem := rfl
@[simp] theorem State.updFork_vis (s : State) (i : Nat) (f : ForkSet → ForkSet) : (s.updFork i f).vis = s.vis := rfl
@[simp] theorem State.updFork_groups (s : State) (i : Nat) (f : ForkSet → ForkSet) : (s.updFork i f).groups = s.groups := rfl
@[simp] theorem State.updFork_blocks (s : State) (i : Nat) (f : ForkSet → ForkSet) : (s.updFork i f).blocks = s.blocks := rfl
@[simp] theorem State.updFork_seeds (s : State) (i : Nat) (f : ForkSet → ForkSet) : (s.updFork i f).seeds = s.seeds := rfl
@[simp] theorem State.updFork_formed (s : State) (i : Nat) (f : ForkSet → ForkSet) : (s.updFork i f).formed = s.formed := rfl
@[simp] theorem State.updFork_feeds (s : State) (i : Nat) (f : ForkSet → ForkSet) : (s.updFork i f).feeds = s.feeds := rfl
@[simp] theorem State.updFork_coreAdmit (s : State) (i : Nat) (f : ForkSet → ForkSet) : (s.updFork i f).coreAdmit = s.coreAdmit := rfl
@[simp] theorem State.updFork_coreScrub (s : State) (i : Nat) (f : ForkSet → ForkSet) : (s.updFork i f).coreScrub = s.coreScrub := rfl
@[simp] theorem State.updFork_ctxs (s : State) (i : Nat) (f : ForkSet → ForkSet) : (s.updFork i f).ctxs = s.ctxs := rfl
@[simp] theorem State.updFork_ctl (s : State) (i : Nat) (f : ForkSet → ForkSet) : (s.updFork i f).ctl = s.ctl := rfl
@[simp] theorem State.updFork_vault (s : State) (i : Nat) (f : ForkSet → ForkSet) : (s.updFork i f).vault = s.vault := rfl
@[simp] theorem State.updFork_fab (s : State) (i : Nat) (f : ForkSet → ForkSet) : (s.updFork i f).fab = s.fab := rfl
@[simp] theorem State.updFork_boot (s : State) (i : Nat) (f : ForkSet → ForkSet) : (s.updFork i f).boot = s.boot := rfl

/-! ## State.updFunc -/

@[simp] theorem State.updFunc_agenda (s : State) (n : Nat) (f : Func → Func) : (s.updFunc n f).agenda = s.agenda := rfl
@[simp] theorem State.updFunc_cur (s : State) (n : Nat) (f : Func → Func) : (s.updFunc n f).cur = s.cur := rfl
@[simp] theorem State.updFunc_fresh (s : State) (n : Nat) (f : Func → Func) : (s.updFunc n f).fresh = s.fresh := rfl
@[simp] theorem State.updFunc_nextId (s : State) (n : Nat) (f : Func → Func) : (s.updFunc n f).nextId = s.nextId := rfl
@[simp] theorem State.updFunc_now (s : State) (n : Nat) (f : Func → Func) : (s.updFunc n f).now = s.now := rfl
@[simp] theorem State.updFunc_cyc (s : State) (n : Nat) (f : Func → Func) : (s.updFunc n f).cyc = s.cyc := rfl
@[simp] theorem State.updFunc_mem (s : State) (n : Nat) (f : Func → Func) : (s.updFunc n f).mem = s.mem := rfl
@[simp] theorem State.updFunc_vis (s : State) (n : Nat) (f : Func → Func) : (s.updFunc n f).vis = s.vis := rfl
@[simp] theorem State.updFunc_groups (s : State) (n : Nat) (f : Func → Func) : (s.updFunc n f).groups = s.groups := rfl
@[simp] theorem State.updFunc_blocks (s : State) (n : Nat) (f : Func → Func) : (s.updFunc n f).blocks = s.blocks := rfl
@[simp] theorem State.updFunc_seeds (s : State) (n : Nat) (f : Func → Func) : (s.updFunc n f).seeds = s.seeds := rfl
@[simp] theorem State.updFunc_formed (s : State) (n : Nat) (f : Func → Func) : (s.updFunc n f).formed = s.formed := rfl
@[simp] theorem State.updFunc_feeds (s : State) (n : Nat) (f : Func → Func) : (s.updFunc n f).feeds = s.feeds := rfl
@[simp] theorem State.updFunc_coreAdmit (s : State) (n : Nat) (f : Func → Func) : (s.updFunc n f).coreAdmit = s.coreAdmit := rfl
@[simp] theorem State.updFunc_coreScrub (s : State) (n : Nat) (f : Func → Func) : (s.updFunc n f).coreScrub = s.coreScrub := rfl
@[simp] theorem State.updFunc_ctxs (s : State) (n : Nat) (f : Func → Func) : (s.updFunc n f).ctxs = s.ctxs := rfl
@[simp] theorem State.updFunc_mx (s : State) (n : Nat) (f : Func → Func) : (s.updFunc n f).mx = s.mx := rfl
@[simp] theorem State.updFunc_vault (s : State) (n : Nat) (f : Func → Func) : (s.updFunc n f).vault = s.vault := rfl
@[simp] theorem State.updFunc_fab (s : State) (n : Nat) (f : Func → Func) : (s.updFunc n f).fab = s.fab := rfl
@[simp] theorem State.updFunc_boot (s : State) (n : Nat) (f : Func → Func) : (s.updFunc n f).boot = s.boot := rfl

/-! ## State.count -/

@[simp] theorem State.count_agenda (s : State) (c i n : Nat) : (s.count c i n).agenda = s.agenda := rfl
@[simp] theorem State.count_cur (s : State) (c i n : Nat) : (s.count c i n).cur = s.cur := rfl
@[simp] theorem State.count_fresh (s : State) (c i n : Nat) : (s.count c i n).fresh = s.fresh := rfl
@[simp] theorem State.count_nextId (s : State) (c i n : Nat) : (s.count c i n).nextId = s.nextId := rfl
@[simp] theorem State.count_now (s : State) (c i n : Nat) : (s.count c i n).now = s.now := rfl
@[simp] theorem State.count_cyc (s : State) (c i n : Nat) : (s.count c i n).cyc = s.cyc := rfl
@[simp] theorem State.count_mem (s : State) (c i n : Nat) : (s.count c i n).mem = s.mem := rfl
@[simp] theorem State.count_vis (s : State) (c i n : Nat) : (s.count c i n).vis = s.vis := rfl
@[simp] theorem State.count_groups (s : State) (c i n : Nat) : (s.count c i n).groups = s.groups := rfl
@[simp] theorem State.count_blocks (s : State) (c i n : Nat) : (s.count c i n).blocks = s.blocks := rfl
@[simp] theorem State.count_seeds (s : State) (c i n : Nat) : (s.count c i n).seeds = s.seeds := rfl
@[simp] theorem State.count_formed (s : State) (c i n : Nat) : (s.count c i n).formed = s.formed := rfl
@[simp] theorem State.count_feeds (s : State) (c i n : Nat) : (s.count c i n).feeds = s.feeds := rfl
@[simp] theorem State.count_coreAdmit (s : State) (c i n : Nat) : (s.count c i n).coreAdmit = s.coreAdmit := rfl
@[simp] theorem State.count_coreScrub (s : State) (c i n : Nat) : (s.count c i n).coreScrub = s.coreScrub := rfl
@[simp] theorem State.count_mx (s : State) (c i n : Nat) : (s.count c i n).mx = s.mx := rfl
@[simp] theorem State.count_ctl (s : State) (c i n : Nat) : (s.count c i n).ctl = s.ctl := rfl
@[simp] theorem State.count_vault (s : State) (c i n : Nat) : (s.count c i n).vault = s.vault := rfl
@[simp] theorem State.count_fab (s : State) (c i n : Nat) : (s.count c i n).fab = s.fab := rfl
@[simp] theorem State.count_boot (s : State) (c i n : Nat) : (s.count c i n).boot = s.boot := rfl

/-! ## State.charge -/

@[simp] theorem State.charge_agenda (s : State) (c b n : Nat) : (s.charge c b n).agenda = s.agenda := rfl
@[simp] theorem State.charge_cur (s : State) (c b n : Nat) : (s.charge c b n).cur = s.cur := rfl
@[simp] theorem State.charge_fresh (s : State) (c b n : Nat) : (s.charge c b n).fresh = s.fresh := rfl
@[simp] theorem State.charge_nextId (s : State) (c b n : Nat) : (s.charge c b n).nextId = s.nextId := rfl
@[simp] theorem State.charge_now (s : State) (c b n : Nat) : (s.charge c b n).now = s.now := rfl
@[simp] theorem State.charge_cyc (s : State) (c b n : Nat) : (s.charge c b n).cyc = s.cyc := rfl
@[simp] theorem State.charge_mem (s : State) (c b n : Nat) : (s.charge c b n).mem = s.mem := rfl
@[simp] theorem State.charge_vis (s : State) (c b n : Nat) : (s.charge c b n).vis = s.vis := rfl
@[simp] theorem State.charge_groups (s : State) (c b n : Nat) : (s.charge c b n).groups = s.groups := rfl
@[simp] theorem State.charge_blocks (s : State) (c b n : Nat) : (s.charge c b n).blocks = s.blocks := rfl
@[simp] theorem State.charge_seeds (s : State) (c b n : Nat) : (s.charge c b n).seeds = s.seeds := rfl
@[simp] theorem State.charge_formed (s : State) (c b n : Nat) : (s.charge c b n).formed = s.formed := rfl
@[simp] theorem State.charge_feeds (s : State) (c b n : Nat) : (s.charge c b n).feeds = s.feeds := rfl
@[simp] theorem State.charge_coreAdmit (s : State) (c b n : Nat) : (s.charge c b n).coreAdmit = s.coreAdmit := rfl
@[simp] theorem State.charge_coreScrub (s : State) (c b n : Nat) : (s.charge c b n).coreScrub = s.coreScrub := rfl
@[simp] theorem State.charge_mx (s : State) (c b n : Nat) : (s.charge c b n).mx = s.mx := rfl
@[simp] theorem State.charge_ctl (s : State) (c b n : Nat) : (s.charge c b n).ctl = s.ctl := rfl
@[simp] theorem State.charge_vault (s : State) (c b n : Nat) : (s.charge c b n).vault = s.vault := rfl
@[simp] theorem State.charge_fab (s : State) (c b n : Nat) : (s.charge c b n).fab = s.fab := rfl
@[simp] theorem State.charge_boot (s : State) (c b n : Nat) : (s.charge c b n).boot = s.boot := rfl

/-! ## State.send -/

@[simp] theorem State.send_agenda (s : State) (m : OutMsg) : (s.send m).agenda = s.agenda := rfl
@[simp] theorem State.send_cur (s : State) (m : OutMsg) : (s.send m).cur = s.cur := rfl
@[simp] theorem State.send_fresh (s : State) (m : OutMsg) : (s.send m).fresh = s.fresh := rfl
@[simp] theorem State.send_nextId (s : State) (m : OutMsg) : (s.send m).nextId = s.nextId := rfl
@[simp] theorem State.send_now (s : State) (m : OutMsg) : (s.send m).now = s.now := rfl
@[simp] theorem State.send_cyc (s : State) (m : OutMsg) : (s.send m).cyc = s.cyc := rfl
@[simp] theorem State.send_mem (s : State) (m : OutMsg) : (s.send m).mem = s.mem := rfl
@[simp] theorem State.send_vis (s : State) (m : OutMsg) : (s.send m).vis = s.vis := rfl
@[simp] theorem State.send_groups (s : State) (m : OutMsg) : (s.send m).groups = s.groups := rfl
@[simp] theorem State.send_blocks (s : State) (m : OutMsg) : (s.send m).blocks = s.blocks := rfl
@[simp] theorem State.send_seeds (s : State) (m : OutMsg) : (s.send m).seeds = s.seeds := rfl
@[simp] theorem State.send_formed (s : State) (m : OutMsg) : (s.send m).formed = s.formed := rfl
@[simp] theorem State.send_feeds (s : State) (m : OutMsg) : (s.send m).feeds = s.feeds := rfl
@[simp] theorem State.send_coreAdmit (s : State) (m : OutMsg) : (s.send m).coreAdmit = s.coreAdmit := rfl
@[simp] theorem State.send_coreScrub (s : State) (m : OutMsg) : (s.send m).coreScrub = s.coreScrub := rfl
@[simp] theorem State.send_ctxs (s : State) (m : OutMsg) : (s.send m).ctxs = s.ctxs := rfl
@[simp] theorem State.send_mx (s : State) (m : OutMsg) : (s.send m).mx = s.mx := rfl
@[simp] theorem State.send_ctl (s : State) (m : OutMsg) : (s.send m).ctl = s.ctl := rfl
@[simp] theorem State.send_vault (s : State) (m : OutMsg) : (s.send m).vault = s.vault := rfl
@[simp] theorem State.send_boot (s : State) (m : OutMsg) : (s.send m).boot = s.boot := rfl
/-! ## Fields below a record that an update leaves alone -/

@[simp] theorem State.updProg_mx_ops (s : State) (c : Nat) (q : Bool) (f : Prog → Prog) : (s.updProg c q f).mx.ops = s.mx.ops := rfl
@[simp] theorem State.updProg_mx_tokens (s : State) (c : Nat) (q : Bool) (f : Prog → Prog) : (s.updProg c q f).mx.tokens = s.mx.tokens := rfl
@[simp] theorem State.updProg_mx_ends (s : State) (c : Nat) (q : Bool) (f : Prog → Prog) : (s.updProg c q f).mx.ends = s.mx.ends := rfl
@[simp] theorem State.updProg_mx_forks (s : State) (c : Nat) (q : Bool) (f : Prog → Prog) : (s.updProg c q f).mx.forks = s.mx.forks := rfl
@[simp] theorem State.updProg_mx_stores (s : State) (c : Nat) (q : Bool) (f : Prog → Prog) : (s.updProg c q f).mx.stores = s.mx.stores := rfl
@[simp] theorem State.updProg_mx_banks (s : State) (c : Nat) (q : Bool) (f : Prog → Prog) : (s.updProg c q f).mx.banks = s.mx.banks := rfl
@[simp] theorem State.updProg_mx_opCache (s : State) (c : Nat) (q : Bool) (f : Prog → Prog) : (s.updProg c q f).mx.opCache = s.mx.opCache := rfl

@[simp] theorem State.updOp_mx_tokens (s : State) (i : Nat) (f : EOp → EOp) : (s.updOp i f).mx.tokens = s.mx.tokens := rfl
@[simp] theorem State.updOp_mx_ends (s : State) (i : Nat) (f : EOp → EOp) : (s.updOp i f).mx.ends = s.mx.ends := rfl
@[simp] theorem State.updOp_mx_forks (s : State) (i : Nat) (f : EOp → EOp) : (s.updOp i f).mx.forks = s.mx.forks := rfl
@[simp] theorem State.updOp_mx_progs (s : State) (i : Nat) (f : EOp → EOp) : (s.updOp i f).mx.progs = s.mx.progs := rfl
@[simp] theorem State.updOp_mx_stores (s : State) (i : Nat) (f : EOp → EOp) : (s.updOp i f).mx.stores = s.mx.stores := rfl
@[simp] theorem State.updOp_mx_banks (s : State) (i : Nat) (f : EOp → EOp) : (s.updOp i f).mx.banks = s.mx.banks := rfl
@[simp] theorem State.updOp_mx_opCache (s : State) (i : Nat) (f : EOp → EOp) : (s.updOp i f).mx.opCache = s.mx.opCache := rfl

@[simp] theorem State.updFork_mx_ops (s : State) (i : Nat) (f : ForkSet → ForkSet) : (s.updFork i f).mx.ops = s.mx.ops := rfl
@[simp] theorem State.updFork_mx_tokens (s : State) (i : Nat) (f : ForkSet → ForkSet) : (s.updFork i f).mx.tokens = s.mx.tokens := rfl
@[simp] theorem State.updFork_mx_ends (s : State) (i : Nat) (f : ForkSet → ForkSet) : (s.updFork i f).mx.ends = s.mx.ends := rfl
@[simp] theorem State.updFork_mx_progs (s : State) (i : Nat) (f : ForkSet → ForkSet) : (s.updFork i f).mx.progs = s.mx.progs := rfl
@[simp] theorem State.updFork_mx_stores (s : State) (i : Nat) (f : ForkSet → ForkSet) : (s.updFork i f).mx.stores = s.mx.stores := rfl
@[simp] theorem State.updFork_mx_banks (s : State) (i : Nat) (f : ForkSet → ForkSet) : (s.updFork i f).mx.banks = s.mx.banks := rfl
@[simp] theorem State.updFork_mx_opCache (s : State) (i : Nat) (f : ForkSet → ForkSet) : (s.updFork i f).mx.opCache = s.mx.opCache := rfl

@[simp] theorem State.updFunc_ctl_partitions (s : State) (n : Nat) (f : Func → Func) : (s.updFunc n f).ctl.partitions = s.ctl.partitions := rfl
@[simp] theorem State.updFunc_ctl_queues (s : State) (n : Nat) (f : Func → Func) : (s.updFunc n f).ctl.queues = s.ctl.queues := rfl
@[simp] theorem State.updFunc_ctl_launches (s : State) (n : Nat) (f : Func → Func) : (s.updFunc n f).ctl.launches = s.ctl.launches := rfl
@[simp] theorem State.updFunc_ctl_waitingHdr (s : State) (n : Nat) (f : Func → Func) : (s.updFunc n f).ctl.waitingHdr = s.ctl.waitingHdr := rfl
@[simp] theorem State.updFunc_ctl_pendings (s : State) (n : Nat) (f : Func → Func) : (s.updFunc n f).ctl.pendings = s.ctl.pendings := rfl
@[simp] theorem State.updFunc_ctl_runs (s : State) (n : Nat) (f : Func → Func) : (s.updFunc n f).ctl.runs = s.ctl.runs := rfl
@[simp] theorem State.updFunc_ctl_heldRuns (s : State) (n : Nat) (f : Func → Func) : (s.updFunc n f).ctl.heldRuns = s.ctl.heldRuns := rfl
@[simp] theorem State.updFunc_ctl_draining (s : State) (n : Nat) (f : Func → Func) : (s.updFunc n f).ctl.draining = s.ctl.draining := rfl
@[simp] theorem State.updFunc_ctl_atsReqs (s : State) (n : Nat) (f : Func → Func) : (s.updFunc n f).ctl.atsReqs = s.ctl.atsReqs := rfl
@[simp] theorem State.updFunc_ctl_atc (s : State) (n : Nat) (f : Func → Func) : (s.updFunc n f).ctl.atc = s.ctl.atc := rfl
@[simp] theorem State.updFunc_ctl_seq (s : State) (n : Nat) (f : Func → Func) : (s.updFunc n f).ctl.seq = s.ctl.seq := rfl
@[simp] theorem State.updFunc_ctl_checkpoint (s : State) (n : Nat) (f : Func → Func) : (s.updFunc n f).ctl.checkpoint = s.ctl.checkpoint := rfl
@[simp] theorem State.updFunc_ctl_mismatch (s : State) (n : Nat) (f : Func → Func) : (s.updFunc n f).ctl.mismatch = s.ctl.mismatch := rfl
@[simp] theorem State.updFunc_ctl_keySlots (s : State) (n : Nat) (f : Func → Func) : (s.updFunc n f).ctl.keySlots = s.ctl.keySlots := rfl
@[simp] theorem State.updFunc_ctl_seals (s : State) (n : Nat) (f : Func → Func) : (s.updFunc n f).ctl.seals = s.ctl.seals := rfl
@[simp] theorem State.updFunc_ctl_acts (s : State) (n : Nat) (f : Func → Func) : (s.updFunc n f).ctl.acts = s.ctl.acts := rfl
@[simp] theorem State.updFunc_ctl_ctlFaults (s : State) (n : Nat) (f : Func → Func) : (s.updFunc n f).ctl.ctlFaults = s.ctl.ctlFaults := rfl
@[simp] theorem State.updFunc_ctl_powerLevel (s : State) (n : Nat) (f : Func → Func) : (s.updFunc n f).ctl.powerLevel = s.ctl.powerLevel := rfl
@[simp] theorem State.updFunc_ctl_powerBelow (s : State) (n : Nat) (f : Func → Func) : (s.updFunc n f).ctl.powerBelow = s.ctl.powerBelow := rfl
@[simp] theorem State.updFunc_ctl_destroyed (s : State) (n : Nat) (f : Func → Func) : (s.updFunc n f).ctl.destroyed = s.ctl.destroyed := rfl
@[simp] theorem State.updFunc_ctl_ticks (s : State) (n : Nat) (f : Func → Func) : (s.updFunc n f).ctl.ticks = s.ctl.ticks := rfl
@[simp] theorem State.updFunc_ctl_mapTicks (s : State) (n : Nat) (f : Func → Func) : (s.updFunc n f).ctl.mapTicks = s.ctl.mapTicks := rfl

@[simp] theorem State.send_fab_ports (s : State) (m : OutMsg) : (s.send m).fab.ports = s.fab.ports := rfl
@[simp] theorem State.send_fab_paths (s : State) (m : OutMsg) : (s.send m).fab.paths = s.fab.paths := rfl
@[simp] theorem State.send_fab_seqNos (s : State) (m : OutMsg) : (s.send m).fab.seqNos = s.fab.seqNos := rfl
@[simp] theorem State.send_fab_switches (s : State) (m : OutMsg) : (s.send m).fab.switches = s.fab.switches := rfl
@[simp] theorem State.send_fab_coll (s : State) (m : OutMsg) : (s.send m).fab.coll = s.fab.coll := rfl
@[simp] theorem State.send_fab_peerHold (s : State) (m : OutMsg) : (s.send m).fab.peerHold = s.fab.peerHold := rfl
@[simp] theorem State.send_fab_lastReport (s : State) (m : OutMsg) : (s.send m).fab.lastReport = s.fab.lastReport := rfl
@[simp] theorem State.send_fab_ptpLocked (s : State) (m : OutMsg) : (s.send m).fab.ptpLocked = s.fab.ptpLocked := rfl
@[simp] theorem State.send_fab_offset (s : State) (m : OutMsg) : (s.send m).fab.offset = s.fab.offset := rfl
@[simp] theorem State.send_fab_beyond50 (s : State) (m : OutMsg) : (s.send m).fab.beyond50 = s.fab.beyond50 := rfl
@[simp] theorem State.send_fab_within50 (s : State) (m : OutMsg) : (s.send m).fab.within50 = s.fab.within50 := rfl
@[simp] theorem State.send_fab_timesetDone (s : State) (m : OutMsg) : (s.send m).fab.timesetDone = s.fab.timesetDone := rfl

@[simp] theorem State.send_out (s : State) (m : OutMsg) : (s.send m).fab.out = m :: s.fab.out := rfl

/-! ## Lookups after an update -/

theorem find?_updWhere {α : Type} (p : α → Bool) (f : α → α) (q : α → Bool) (hq : ∀ x, q (f x) = q x) (l : List α) :
    (updWhere p f l).find? q = (l.find? q).map (fun x => if p x then f x else x) := by
  induction l with
  | nil => rfl
  | cons x l ih =>
    have hx : q (if p x then f x else x) = q x := by split <;> simp [hq]
    simp only [updWhere, List.map_cons, List.find?_cons, hx] at ih ⊢
    cases q x <;> simp [ih]

/-- What a lookup finds after an update that keeps the key. -/
theorem State.updGroup_group (s : State) (n m : Nat) (f : Group → Group) (hf : ∀ x, (f x).gid = x.gid) :
    (s.updGroup n f).group? m = (s.group? m).map (fun x => if x.gid == n then f x else x) :=
  find?_updWhere _ _ _ (fun x => by simp [hf]) _

theorem State.group?_gid {s : State} {n : Nat} {g : Group} (h : s.group? n = some g) : g.gid = n := by
  simpa using List.find?_some h

/-- The group just updated. -/
theorem State.updGroup_self {s : State} {n : Nat} {f : Group → Group} {g : Group} (h : s.group? n = some g) (hf : ∀ x, (f x).gid = x.gid) :
    (s.updGroup n f).group? n = some (f g) := by
  rw [State.updGroup_group s n n f hf, h]
  simp [State.group?_gid h]

theorem State.getGroup_of {s : State} {n : Nat} {g : Group} (h : s.group? n = some g) : s.getGroup n = g := by
  simp [State.getGroup, h]

/-- What a lookup finds after an update that keeps the key. -/
theorem State.updCtx_ctx (s : State) (n m : Nat) (f : Ctx → Ctx) (hf : ∀ x, (f x).num = x.num) :
    (s.updCtx n f).ctx? m = (s.ctx? m).map (fun x => if x.num == n then f x else x) :=
  find?_updWhere _ _ _ (fun x => by simp [hf]) _

/-- What a lookup finds after an update that keeps the key. -/
theorem State.updBlock_block (s : State) (n m : Nat) (f : Block → Block) (hf : ∀ x, (f x).id = x.id) :
    (s.updBlock n f).block? m = (s.block? m).map (fun x => if x.id == n then f x else x) :=
  find?_updWhere _ _ _ (fun x => by simp [hf]) _

end Sys2Proof.Machine
end

