-- ==== Sys2Proof/Laws/Issue.lean ====
section
/-! SUPPORT. What a slot does, said once for each way its effect can end. -/

namespace Sys2Proof.Machine

theorem splitCtx_u {s : State} {gid entry : Nat} {i : Instr} {k : SlotCtx} (h : splitCtx s gid entry i = some k) :
    k.u = .split gid entry ∧ k.gid = gid ∧ k.entry = entry ∧ k.i = i := by
  unfold splitCtx at h
  split at h
  · cases h
  · split at h
    · cases h
    · split at h
      · cases h
      · split at h
        · cases h
        · cases h; exact ⟨rfl, rfl, rfl, rfl⟩

theorem progCtx_u {s : State} {cluster : Nat} {isSeq : Bool} {i : Instr} {k : SlotCtx} (h : progCtx s cluster isSeq i = some k) :
    k.u = (if isSeq then .seq cluster else .eng cluster) ∧ k.cluster = cluster ∧ k.i = i := by
  unfold progCtx at h
  split at h
  · cases h
  · split at h
    · cases h
    · split at h
      · cases h
      · cases h; exact ⟨rfl, rfl, rfl⟩

theorem slotCtx_i {s : State} {i : Instr} {k : SlotCtx} (h : slotCtx s i = some k) : k.i = i := by
  unfold slotCtx at h
  split at h
  · exact (splitCtx_u h).2.2.2
  · exact (progCtx_u h).2.2
  · exact (progCtx_u h).2.2
  · cases h

/-- What is left to do at a slot once its checks have passed. -/
def afterEffect (s : State) (k : SlotCtx) : Out → State
  | .done t r => ended t (enteredCtx s k) r
  | .trap t _ tr =>
    match k.u with
    | .split _ _ => t
    | .seq _ | .eng _ => progTrap t k.cluster (isSeqUnit k.u) tr (progAddr k.c)
  | .stall t => t
  | .park t kind => parkedAt t (enteredCtx s k) kind
  | .xfer t v => transferred t (enteredCtx s k) v
  | .gone t => t

/-- A slot whose effect does not trap. -/
theorem slotStep_eff {s : State} {i : Instr} {k : SlotCtx} {eff : SlotCtx → State → Out} {o : Out} (h : AtSlot s i k)
    (he : eff (enteredCtx s k) (entered s k) = o) (ho : ∀ t r tr, o ≠ .trap t r tr) : slotStep i eff s = .next (afterEffect s k o) := by
  obtain ⟨h1, h2, h3⟩ := h
  unfold slotStep
  rw [h1]
  unfold runUnit
  unfold enteredCtx entered at he
  unfold afterEffect ended transferred parkedAt moved written enteredCtx
  cases hu : k.u <;> simp only [hu] at he ⊢
  · unfold runSlot
    simp only [h2, h3]
    rcases hm : markCounted s k.gid k.entry k.ctx k.c with ⟨s', c'⟩
    simp only [hm, hu] at he ⊢
    simp only [he]
    cases o <;> first | rfl | exact absurd rfl (ho _ _ _)
  · unfold runProg
    simp only [h2, h3, isSeqUnit] at he ⊢
    simp only [he]
    cases o <;> first | rfl | exact absurd rfl (ho _ _ _)
  · unfold runProg
    simp only [h2, h3, isSeqUnit] at he ⊢
    simp only [he]
    cases o <;> first | rfl | exact absurd rfl (ho _ _ _)

/-- The effect completes: its results are written and the unit moves on. -/
theorem slotStep_done {s t : State} {i : Instr} {k : SlotCtx} {eff : SlotCtx → State → Out} {r : List (Nat × List Word)} (h : AtSlot s i k)
    (he : eff (enteredCtx s k) (entered s k) = .done t r) : slotStep i eff s = .next (ended t (enteredCtx s k) r) :=
  slotStep_eff h he (fun _ _ _ => Out.noConfusion)

/-! ## Counting an issue changes nothing that a slot reads (R295) -/

theorem Group.split?_setSplit (g : Group) (e : Nat) (x y : Split) (h : g.split? e = some x) :
    (g.setSplit e (some y)).split? e = some y := by
  have hl : e < g.splits.length := by
    by_cases hl : e < g.splits.length
    · exact hl
    · simp [Group.split?, List.getD_eq_getElem?_getD, List.getElem?_eq_none (Nat.le_of_not_lt hl)] at h
  simp [Group.split?, Group.setSplit, List.getD_eq_getElem?_getD, hl]

/-- The group after its split's clause is marked: only that clause has changed. -/
theorem markCounted_group {s : State} {gid entry ctx : Nat} {c : Clause} {g : Group} {sp : Split} (h : s.group? gid = some g)
    (hs : g.split? entry = some sp) :
    ∃ sps c', (markCounted s gid entry ctx c).1.group? gid = some { g with splits := sps } ∧
      ({ g with splits := sps } : Group).split? entry = some { sp with clause := c' } := by
  unfold markCounted
  split
  · exact ⟨g.splits, sp.clause, h, hs⟩
  · let f : Group → Group := fun g =>
      match g.split? entry with
      | some sp => g.setSplit entry (some { sp with clause := some { c with counted := true } })
      | none => g
    have hf : ∀ x, (f x).gid = x.gid := by intro x; simp only [f]; split <;> rfl
    have hg : f g = g.setSplit entry (some { sp with clause := some { c with counted := true } }) := by simp only [f, hs]
    refine ⟨(f g).splits, some { c with counted := true }, (State.updGroup_self (s := s.count ctx 0x0000 1) (f := f) h hf).trans ?_, ?_⟩
    · rw [hg]; rfl
    · rw [hg]; exact Group.split?_setSplit g entry sp _ hs

theorem markCounted_now (s : State) (gid entry ctx : Nat) (c : Clause) : (markCounted s gid entry ctx c).1.now = s.now := by
  unfold markCounted
  split <;> rfl

theorem markCounted_clause (s : State) (gid entry ctx : Nat) (c : Clause) :
    (markCounted s gid entry ctx c).2 = { c with counted := true } := by
  unfold markCounted
  split
  · rename_i h; cases c; simp_all
  · rfl

theorem splitCtx_parts {s : State} {gid entry : Nat} {i : Instr} {k : SlotCtx} (h : splitCtx s gid entry i = some k) :
    s.group? gid = some k.g ∧ k.g.split? entry = some k.sp ∧ k.sp.clause = some k.c := by
  unfold splitCtx at h
  split at h
  · cases h
  · rename_i g hg
    split at h
    · cases h
    · rename_i sp hsp
      split at h
      · cases h
      · rename_i c hc
        split at h
        · cases h
        · cases h; exact ⟨hg, hsp, hc⟩

theorem entered_prog {s : State} {cluster : Nat} {q : Bool} {i : Instr} {k : SlotCtx} (h : progCtx s cluster q i = some k) :
    enteredCtx s k = k ∧ (entered s k).now = s.now := by
  obtain ⟨hu, -, -⟩ := progCtx_u h
  unfold enteredCtx entered
  cases q <;> simp only [Bool.false_eq_true, if_true, if_false] at hu <;> simp only [hu, true_and] <;> split <;> rfl

theorem entered_word_prog {s : State} {cluster : Nat} {q : Bool} {i : Instr} {k : SlotCtx} (h : progCtx s cluster q i = some k)
    (x : Src) (l j : Nat) : (enteredCtx s k).word (entered s k) x l j = k.word s x l j := by
  obtain ⟨e1, e2⟩ := entered_prog h
  rw [e1]
  cases x <;> simp only [SlotCtx.word, SlotCtx.special, e2]

/-- What a slot reads is what stood there before its issue was counted. -/
theorem entered_word {s : State} {i : Instr} {k : SlotCtx} (h : slotCtx s i = some k) (x : Src) (l j : Nat) :
    (enteredCtx s k).word (entered s k) x l j = k.word s x l j := by
  unfold slotCtx at h
  split at h
  · rename_i gid entry _
    obtain ⟨hu, hg, he, -⟩ := splitCtx_u h
    obtain ⟨h1, h2, -⟩ := splitCtx_parts h
    subst hg he
    obtain ⟨sps, c', hm, hs⟩ := markCounted_group (ctx := k.ctx) (c := k.c) h1 h2
    have e1 : enteredCtx s k = { k with c := { k.c with counted := true }, g := { k.g with splits := sps }, sp := { k.sp with clause := c' } } := by
      unfold enteredCtx
      split
      · simp only [markCounted_clause, State.getGroup_of hm, hs, Option.getD_some]
      all_goals rename_i hu'; rw [hu] at hu'; cases hu'
    have e2 : (entered s k).now = s.now := by
      unfold entered
      split
      · exact markCounted_now s _ _ _ _
      all_goals rename_i hu'; rw [hu] at hu'; cases hu'
    rw [e1]
    cases x <;> simp only [SlotCtx.word, SlotCtx.special, SlotCtx.sword, SlotCtx.isProg, Group.vreg, Group.sregOf, Clause.latchOf, hu, e2]
  · exact entered_word_prog h x l j
  · exact entered_word_prog h x l j
  · cases h

/-- An operand depends on the state through the time alone. -/
theorem word_congr (k : SlotCtx) {s t : State} (h : s.now = t.now) (x : Src) (l j : Nat) : k.word s x l j = k.word t x l j := by
  cases x <;> simp only [SlotCtx.word, SlotCtx.special, h]

theorem entered_rd {s : State} {i : Instr} {k : SlotCtx} (h : slotCtx s i = some k) (x : Src) (l : Nat) :
    (enteredCtx s k).rd (entered s k) x l = k.rd s x l := entered_word h x l 0

theorem entered_rdF32 {s : State} {i : Instr} {k : SlotCtx} (h : slotCtx s i = some k) (x : Src) (l : Nat) :
    (enteredCtx s k).rdF32 (entered s k) x l = k.rdF32 s x l := by
  cases x <;> simp only [SlotCtx.rdF32, entered_word h]

@[simp] theorem enteredCtx_ex (s : State) (k : SlotCtx) : (enteredCtx s k).ex = k.ex := by unfold enteredCtx; split <;> rfl
@[simp] theorem enteredCtx_lanes (s : State) (k : SlotCtx) : (enteredCtx s k).lanes = k.lanes := by simp [SlotCtx.lanes]
@[simp] theorem enteredCtx_gid (s : State) (k : SlotCtx) : (enteredCtx s k).gid = k.gid := by unfold enteredCtx; split <;> rfl
@[simp] theorem enteredCtx_entry (s : State) (k : SlotCtx) : (enteredCtx s k).entry = k.entry := by unfold enteredCtx; split <;> rfl
@[simp] theorem enteredCtx_ctx (s : State) (k : SlotCtx) : (enteredCtx s k).ctx = k.ctx := by unfold enteredCtx; split <;> rfl
@[simp] theorem enteredCtx_core (s : State) (k : SlotCtx) : (enteredCtx s k).core = k.core := by unfold enteredCtx; split <;> rfl
@[simp] theorem enteredCtx_cluster (s : State) (k : SlotCtx) : (enteredCtx s k).cluster = k.cluster := by unfold enteredCtx; split <;> rfl
@[simp] theorem enteredCtx_u (s : State) (k : SlotCtx) : (enteredCtx s k).u = k.u := by unfold enteredCtx; split <;> rfl
@[simp] theorem enteredCtx_i (s : State) (k : SlotCtx) : (enteredCtx s k).i = k.i := by unfold enteredCtx; split <;> rfl
@[simp] theorem enteredCtx_p (s : State) (k : SlotCtx) : (enteredCtx s k).p = k.p := by unfold enteredCtx; split <;> rfl
@[simp] theorem enteredCtx_mask (s : State) (k : SlotCtx) : (enteredCtx s k).mask = k.mask := by unfold enteredCtx; split <;> rfl
@[simp] theorem enteredCtx_park (s : State) (k : SlotCtx) : (enteredCtx s k).park = k.park := by unfold enteredCtx; split <;> rfl

/-- A slot that gives each executing lane one word. -/
theorem slotStep_laneWord {s : State} {i : Instr} {k : SlotCtx} (h : AtSlot s i k) (f : SlotCtx → State → Nat → Word) (v : Nat → Word)
    (hf : ∀ l, f (enteredCtx s k) (entered s k) l = v l) :
    slotStep i (fun k s => laneWord k s (f k s)) s = .next (ended (entered s k) (enteredCtx s k) (onLanes k (fun l => [v l]))) := by
  refine slotStep_done h ?_
  simp only [laneWord, onLanes, enteredCtx_lanes, hf]

end Sys2Proof.Machine
end

