-- ==== Sys2Proof/Laws/Memory.lean ====
section
/-! SUPPORT. The laws of sparse maps, and that every operation on memory keeps its canonical form. -/

namespace Sys2Proof.Machine

variable {β : Type}

/-! ## Order of keys -/

theorem SMap.above_trans {b c : Nat} (h : b < c) : ∀ m : SMap β, m.above c = true → m.above b = true
  | [], _ => rfl
  | (k, v) :: m, hm => by
    simp only [SMap.above, Bool.and_eq_true, decide_eq_true_eq] at hm ⊢
    exact ⟨by omega, hm.2⟩

theorem SMap.sorted_of_above {b : Nat} : ∀ m : SMap β, m.above b = true → m.sorted = true
  | [], _ => rfl
  | (k, v) :: m, h => by
    simp only [SMap.above, Bool.and_eq_true] at h
    exact h.2

theorem SMap.put_above {b a : Nat} (x : β) (hb : b < a) : ∀ m : SMap β, m.above b = true → (m.put a x).above b = true
  | [], _ => by simp [SMap.put, SMap.above, hb]
  | (k, v) :: m, h => by
    simp only [SMap.above, Bool.and_eq_true, decide_eq_true_eq] at h
    simp only [SMap.put]
    split
    · rename_i hk; simp [SMap.above, hb, hk, h.2]
    · split
      · rename_i hk; subst hk; simp [SMap.above, h.2, hb]
      · rename_i hk hk'
        simp only [SMap.above, Bool.and_eq_true, decide_eq_true_eq]
        exact ⟨h.1, SMap.put_above x (by omega) m h.2⟩

theorem SMap.put_sorted (a : Nat) (x : β) : ∀ m : SMap β, m.sorted = true → (m.put a x).sorted = true
  | [], _ => rfl
  | (k, v) :: m, h => by
    simp only [SMap.sorted] at h
    simp only [SMap.put]
    split
    · rename_i hk; simp [SMap.sorted, SMap.above, hk, h]
    · split
      · rename_i hk; subst hk; simpa [SMap.sorted] using h
      · rename_i hk hk'; simpa [SMap.sorted] using SMap.put_above x (by omega) m h

theorem SMap.put_all {p : Nat × β → Bool} (a : Nat) (x : β) (hx : p (a, x) = true) :
    ∀ m : SMap β, m.all p = true → (m.put a x).all p = true
  | [], _ => by simp [SMap.put, hx]
  | (k, v) :: m, h => by
    simp only [List.all_cons, Bool.and_eq_true] at h
    simp only [SMap.put]
    split
    · simp only [List.all_cons, hx, h.1, h.2, Bool.and_self]
    · split
      · simp only [List.all_cons, hx, h.2, Bool.and_self]
      · simp only [List.all_cons, h.1, SMap.put_all a x hx m h.2, Bool.and_self]

theorem SMap.filter_above {b : Nat} (q : Nat × β → Bool) : ∀ m : SMap β, m.above b = true → SMap.above b (m.filter q) = true
  | [], _ => rfl
  | (k, v) :: m, h => by
    simp only [SMap.above, Bool.and_eq_true, decide_eq_true_eq] at h
    simp only [List.filter_cons]
    split
    · simp only [SMap.above, Bool.and_eq_true, decide_eq_true_eq]
      exact ⟨h.1, SMap.filter_above q m h.2⟩
    · exact SMap.above_trans h.1 _ (SMap.filter_above q m h.2)

theorem SMap.filter_sorted (q : Nat × β → Bool) (m : SMap β) (h : m.sorted = true) : SMap.sorted (m.filter q) = true := by
  cases m with
  | nil => rfl
  | cons e m =>
    obtain ⟨k, v⟩ := e
    simp only [SMap.sorted] at h
    simp only [List.filter_cons]
    split
    · exact SMap.filter_above q m h
    · exact SMap.sorted_of_above _ (SMap.filter_above q m h)

theorem SMap.del_sorted (a : Nat) (m : SMap β) (h : m.sorted = true) : (m.del a).sorted = true :=
  SMap.filter_sorted _ m h

theorem SMap.del_all {p : Nat × β → Bool} (a : Nat) (m : SMap β) (h : m.all p = true) : (m.del a).all p = true := by
  simp only [SMap.del, List.all_eq_true, List.mem_filter] at h ⊢
  exact fun e he => h e he.1

/-! ## The canonical form -/

theorem SMap.set_wf [DecidableEq β] (d : β) (m : SMap β) (a : Nat) (x : β) (h : SMap.wf d m = true) :
    SMap.wf d (m.set d a x) = true := by
  simp only [SMap.wf, Bool.and_eq_true] at h ⊢
  unfold SMap.set
  split
  · exact ⟨SMap.del_sorted a m h.1, SMap.del_all a m h.2⟩
  · rename_i hx
    exact ⟨SMap.put_sorted a x m h.1, SMap.put_all a x (by simpa using hx) m h.2⟩

theorem SMap.clearRange_wf [DecidableEq β] (d : β) (m : SMap β) (lo hi : Nat) (h : SMap.wf d m = true) :
    SMap.wf d (m.clearRange lo hi) = true := by
  simp only [SMap.wf, Bool.and_eq_true] at h ⊢
  refine ⟨SMap.filter_sorted _ m h.1, ?_⟩
  simp only [SMap.clearRange, List.all_eq_true, List.mem_filter] at h ⊢
  exact fun e he => h.2 e he.1

/-! ## Reads after writes -/

theorem SMap.get?_put_self (a : Nat) (x : β) : ∀ m : SMap β, (m.put a x).get? a = some x
  | [] => by simp [SMap.put, SMap.get?]
  | (k, v) :: m => by
    simp only [SMap.put]
    split
    · simp [SMap.get?]
    · split
      · simp [SMap.get?]
      · rename_i hk hk'; simp only [SMap.get?]; rw [if_neg hk']; exact SMap.get?_put_self a x m

theorem SMap.get?_put_ne {a b : Nat} (x : β) (hab : b ≠ a) : ∀ m : SMap β, (m.put a x).get? b = m.get? b
  | [] => by simp only [SMap.put, SMap.get?, hab, if_false]
  | (k, v) :: m => by
    simp only [SMap.put]
    split
    · simp only [SMap.get?, hab, if_false]
    · split
      · rename_i hk hk'; subst hk'; simp only [SMap.get?, hab, if_false]
      · simp only [SMap.get?, SMap.get?_put_ne x hab m]

/-- A lookup sees only what a filter keeps. -/
theorem SMap.get?_filter {q : Nat → Bool} (b : Nat) : ∀ m : SMap β, SMap.get? (m.filter (fun e => q e.1)) b = if q b then m.get? b else none
  | [] => by simp [SMap.get?]
  | (k, v) :: m => by
    simp only [List.filter_cons]
    by_cases hq : q k
    · simp only [hq, if_true, SMap.get?, SMap.get?_filter b m]
      by_cases hb : b = k
      · subst hb; simp [hq]
      · simp [hb]
    · have e := SMap.get?_filter (q := q) b m
      by_cases hb : b = k
      · subst hb; simpa [hq] using e
      · simpa [hq, hb, SMap.get?] using e

theorem SMap.get?_del_self (a : Nat) (m : SMap β) : (m.del a).get? a = none := by
  simp [SMap.del, SMap.get?_filter (q := fun k => k != a)]

theorem SMap.get?_del_ne {a b : Nat} (hab : b ≠ a) (m : SMap β) : (m.del a).get? b = m.get? b := by
  simp [SMap.del, SMap.get?_filter (q := fun k => k != a), hab]

theorem SMap.sorted_of_wf [DecidableEq β] {d : β} {m : SMap β} (h : SMap.wf d m = true) : m.sorted = true := by
  simp only [SMap.wf, Bool.and_eq_true] at h
  exact h.1

/-- A read of the key just written. -/
theorem SMap.get_set_self [DecidableEq β] (d : β) (m : SMap β) (a : Nat) (x : β) : (m.set d a x).get a d = x := by
  unfold SMap.set SMap.get
  split
  · rename_i hx; rw [SMap.get?_del_self a m]; exact hx.symm
  · rw [SMap.get?_put_self]; rfl

/-- A read of any other key. -/
theorem SMap.get_set_ne [DecidableEq β] (d : β) (m : SMap β) {a b : Nat} (x : β) (hab : b ≠ a) :
    (m.set d a x).get b d = m.get b d := by
  unfold SMap.set SMap.get
  split
  · rw [SMap.get?_del_ne hab m]
  · rw [SMap.get?_put_ne x hab m]

/-! ## Memory -/

theorem memWrite_wf (d : List (Nat × Byte)) : ∀ m : SMap Byte, Memory.wf m → Memory.wf (memWrite m d) := by
  induction d with
  | nil => exact fun m h => h
  | cons e d ih => exact fun m h => ih _ (SMap.set_wf memDefault m e.1 e.2 h)

/-- A write leaves every byte it does not name alone. -/
theorem memWrite_get_ne (b : Nat) (d : List (Nat × Byte)) (hb : ∀ e ∈ d, e.1 ≠ b) :
    ∀ m : SMap Byte, (memWrite m d).get b memDefault = m.get b memDefault := by
  induction d with
  | nil => exact fun m => rfl
  | cons e d ih =>
    intro m
    have hne : b ≠ e.1 := fun h => hb e (List.mem_cons_self ..) h.symm
    show (memWrite (m.set memDefault e.1 e.2) d).get b memDefault = _
    rw [ih (fun x hx => hb x (List.mem_cons_of_mem _ hx))]
    exact SMap.get_set_ne memDefault m e.2 hne

/-- A fold keeps what each of its steps keeps. -/
theorem foldl_keeps {σ α : Type} (P : σ → Prop) (f : σ → α → σ) (hf : ∀ s a, P s → P (f s a)) : ∀ (l : List α) (s : σ), P s → P (l.foldl f s)
  | [], _, h => h
  | a :: l, s, h => foldl_keeps P f hf l (f s a) (hf s a h)

@[simp] theorem fireMonitors_mem (s : State) (sec : Nat) : (fireMonitors s sec).mem = s.mem := by
  unfold fireMonitors
  refine foldl_keeps (fun t : State => t.mem = s.mem) _ ?_ _ s rfl
  exact fun _ _ h => h
@[simp] theorem breakResv_mem (s : State) (sec : Nat) (w : Option (Nat × Nat)) : (breakResv s sec w).mem = s.mem := by
  unfold breakResv
  refine foldl_keeps (fun t : State => t.mem = s.mem) _ ?_ _ s rfl
  exact fun _ _ h => h

/-- A commit writes its bytes and nothing else of memory. -/
@[simp] theorem homeCommit_mem (s : State) (w : Option (Nat × Nat)) (c : Option Nat) (sec : Nat) (d : List (Nat × Byte)) :
    (homeCommit s w c sec d).mem = memWrite s.mem d := by
  unfold homeCommit
  simp only [fireMonitors_mem, breakResv_mem]

theorem homeCommit_wf (s : State) (w : Option (Nat × Nat)) (c : Option Nat) (sec : Nat) (d : List (Nat × Byte)) (h : Memory.wf s.mem) :
    Memory.wf (homeCommit s w c sec d).mem := by
  rw [homeCommit_mem]; exact memWrite_wf d s.mem h

theorem devWrite_wf (s : State) (pa : Nat) (bs : List Byte) (h : Memory.wf s.mem) : Memory.wf (devWrite s pa bs).mem :=
  foldl_keeps (fun s => Memory.wf s.mem) _ (fun s e hs => homeCommit_wf s none none e.1 e.2 hs) _ s h

theorem claimFrames_wf (s : State) (frame n owner : Nat) (h : Memory.wf s.mem) : Memory.wf (claimFrames s frame n owner).mem := by
  refine foldl_keeps (fun s => Memory.wf s.mem) _ (fun s e hs => ?_) _ s h
  dsimp only
  split
  · exact hs
  · exact SMap.clearRange_wf memDefault s.mem _ _ hs

theorem reset_mem_wf : Memory.wf State.reset.mem := rfl

end Sys2Proof.Machine
end

