-- ==== Sys2Proof/Laws/PerInstr.lean ====
section
/-! SUPPORT. Family `Encoding`: a well-formed instruction is what the decoder reads from its own word
(R32, R33, R36, R37, R47). -/

namespace Sys2Proof.Laws.Encoding

def Statement (i : Instr) : Prop := i.isSlot = true → i.wellFormed = true → decode (encode i) = .ok i

/-- What is to show of each: its word has a slot's major, and parses to it. -/
theorem of_parse {i : Instr} {w : DWord} (hw : encode? i = some w) (hm : majorOf w < 0xF0) (hp : i.wellFormed = true → parse w = some i) :
    Statement i := by
  intro _ h
  have he : encode i = w := by simp [encode, hw]
  rw [he]
  unfold decode
  rw [if_neg (by omega), hp h]
  simp [h]

theorem of_event {i : Instr} (h : encode? i = none) : Statement i := by
  intro hs
  simp [Instr.isSlot, h] at hs


/-- The same for a word of format V. -/
theorem ofV {i : Instr} (maj mn : Nat) (f : VForm) (hw : encode? i = some (packV maj mn f)) (hm : maj < 0xF0)
    (hp : i.wellFormed = true → ∀ w, vOf w = f → minorOf w = mn % 16 → parseMajor w (minorOf w) maj = some i) : Statement i := by
  have hM : majorOf (packV maj mn f) = maj := by rw [majorOf_packV]; omega
  refine of_parse hw (by omega) (fun h => ?_)
  unfold parse
  rw [hM]
  exact hp h _ (vOf_packV maj mn f) (minorOf_packV maj mn f)

/-- The same for a word of format I. -/
theorem ofI {i : Instr} (maj mn : Nat) (f : IForm) (hw : encode? i = some (packI maj mn f)) (hm : maj < 0xF0)
    (hp : i.wellFormed = true → ∀ w, iOf w = f → minorI w = mn % 8 → parseMajor w (minorOf w) maj = some i) : Statement i := by
  have hM : majorOf (packI maj mn f) = maj := by rw [majorOf_packI]; omega
  refine of_parse hw (by omega) (fun h => ?_)
  unfold parse
  rw [hM]
  exact hp h _ (iOf_packI maj mn f) (minorI_packI maj mn f)

/-- The same for a word of format M. -/
theorem ofM {i : Instr} (maj mn : Nat) (f : MForm) (hw : encode? i = some (packM maj mn f)) (hm : maj < 0xF0)
    (hp : i.wellFormed = true → ∀ w, mOf w = f → minorOf w = mn % 16 → parseMajor w (minorOf w) maj = some i) : Statement i := by
  have hM : majorOf (packM maj mn f) = maj := by rw [majorOf_packM]; omega
  refine of_parse hw (by omega) (fun h => ?_)
  unfold parse
  rw [hM]
  exact hp h _ (mOf_packM maj mn f) (minorOf_packM maj mn f)

/-- The same for a word of format S. -/
theorem ofS {i : Instr} (maj mn : Nat) (f : SForm) (hw : encode? i = some (packS maj mn f)) (hm : maj < 0xF0)
    (hp : i.wellFormed = true → ∀ w, sOf w = f → minorOf w = mn % 16 → parseMajor w (minorOf w) maj = some i) : Statement i := by
  have hM : majorOf (packS maj mn f) = maj := by rw [majorOf_packS]; omega
  refine of_parse hw (by omega) (fun h => ?_)
  unfold parse
  rw [hM]
  exact hp h _ (sOf_packS maj mn f) (minorOf_packS maj mn f)

/-- The same for a word of format B. -/
theorem ofB {i : Instr} (maj mn : Nat) (f : BForm) (hw : encode? i = some (packB maj mn f)) (hm : maj < 0xF0)
    (hp : i.wellFormed = true → ∀ w, bOf w = f → minorOf w = mn % 16 → parseMajor w (minorOf w) maj = some i) : Statement i := by
  have hM : majorOf (packB maj mn f) = maj := by rw [majorOf_packB]; omega
  refine of_parse hw (by omega) (fun h => ?_)
  unfold parse
  rw [hM]
  exact hp h _ (bOf_packB maj mn f) (minorOf_packB maj mn f)

/-- The same for a word of format X. -/
theorem ofX {i : Instr} (maj mn : Nat) (f : XForm) (hw : encode? i = some (packX maj mn f)) (hm : maj < 0xF0)
    (hp : i.wellFormed = true → ∀ w, xOf w = f → minorOf w = mn % 16 → parseMajor w (minorOf w) maj = some i) : Statement i := by
  have hM : majorOf (packX maj mn f) = maj := by rw [majorOf_packX]; omega
  refine of_parse hw (by omega) (fun h => ?_)
  unfold parse
  rw [hM]
  exact hp h _ (xOf_packX maj mn f) (minorOf_packX maj mn f)

/-- The same for a word of format Y. -/
theorem ofY {i : Instr} (maj mn : Nat) (f : YForm) (hw : encode? i = some (packY maj mn f)) (hm : maj < 0xF0)
    (hp : i.wellFormed = true → ∀ w, yOf w = f → minorOf w = mn % 16 → parseMajor w (minorOf w) maj = some i) : Statement i := by
  have hM : majorOf (packY maj mn f) = maj := by rw [majorOf_packY]; omega
  refine of_parse hw (by omega) (fun h => ?_)
  unfold parse
  rw [hM]
  exact hp h _ (yOf_packY maj mn f) (minorOf_packY maj mn f)

/-- The same for a word of format YW. -/
theorem ofYW {i : Instr} (maj mn : Nat) (f : YWForm) (hw : encode? i = some (packYW maj mn f)) (hm : maj < 0xF0)
    (hp : i.wellFormed = true → ∀ w, ywOf w = f → minorOf w = mn % 16 → parseMajor w (minorOf w) maj = some i) : Statement i := by
  have hM : majorOf (packYW maj mn f) = maj := by rw [majorOf_packYW]; omega
  refine of_parse hw (by omega) (fun h => ?_)
  unfold parse
  rw [hM]
  exact hp h _ (ywOf_packYW maj mn f) (minorOf_packYW maj mn f)

theorem clauseIssue : Statement .clauseIssue := of_event rfl
theorem iadd (m : SatMode) (f : VForm) : Statement (.iadd m f) :=
  ofV 0x00 m.minor f rfl (by decide) (fun h w hf hm => by subst hf; rw [hm]; cases m <;> rfl)
theorem isub (m : SatMode) (f : VForm) : Statement (.isub m f) :=
  ofV 0x01 m.minor f rfl (by decide) (fun h w hf hm => by subst hf; rw [hm]; cases m <;> rfl)
theorem imul (f : VForm) : Statement (.imul f) :=
  ofV 0x02 0 f rfl (by decide) (fun h w hf hm => by subst hf; rw [hm]; rfl)
theorem imulh (m : Sgn) (f : VForm) : Statement (.imulh m f) :=
  ofV 0x03 m.minor f rfl (by decide) (fun h w hf hm => by subst hf; rw [hm]; cases m <;> rfl)
theorem imad (m : MadMode) (f : VForm) : Statement (.imad m f) :=
  ofV 0x04 m.minor f rfl (by decide) (fun h w hf hm => by subst hf; rw [hm]; cases m <;> rfl)
theorem imin (m : Sgn) (f : VForm) : Statement (.imin m f) :=
  ofV 0x05 m.minor f rfl (by decide) (fun h w hf hm => by subst hf; rw [hm]; cases m <;> rfl)
theorem imax (m : Sgn) (f : VForm) : Statement (.imax m f) :=
  ofV 0x06 m.minor f rfl (by decide) (fun h w hf hm => by subst hf; rw [hm]; cases m <;> rfl)
theorem iabs (f : VForm) : Statement (.iabs f) :=
  ofV 0x07 0 f rfl (by decide) (fun h w hf hm => by subst hf; rw [hm]; rfl)
theorem and (f : VForm) : Statement (.and f) :=
  ofV 0x08 0 f rfl (by decide) (fun h w hf hm => by subst hf; rw [hm]; rfl)
theorem or (f : VForm) : Statement (.or f) :=
  ofV 0x08 1 f rfl (by decide) (fun h w hf hm => by subst hf; rw [hm]; rfl)
theorem xor (f : VForm) : Statement (.xor f) :=
  ofV 0x08 2 f rfl (by decide) (fun h w hf hm => by subst hf; rw [hm]; rfl)
theorem andn (f : VForm) : Statement (.andn f) :=
  ofV 0x08 3 f rfl (by decide) (fun h w hf hm => by subst hf; rw [hm]; rfl)
theorem shl (f : VForm) : Statement (.shl f) :=
  ofV 0x09 0 f rfl (by decide) (fun h w hf hm => by subst hf; rw [hm]; rfl)
theorem shr (f : VForm) : Statement (.shr f) :=
  ofV 0x0A 0 f rfl (by decide) (fun h w hf hm => by subst hf; rw [hm]; rfl)
theorem sar (f : VForm) : Statement (.sar f) :=
  ofV 0x0B 0 f rfl (by decide) (fun h w hf hm => by subst hf; rw [hm]; rfl)
theorem rol (f : VForm) : Statement (.rol f) :=
  ofV 0x0C 0 f rfl (by decide) (fun h w hf hm => by subst hf; rw [hm]; rfl)
theorem popc (f : VForm) : Statement (.popc f) :=
  ofV 0x0D 0 f rfl (by decide) (fun h w hf hm => by subst hf; rw [hm]; rfl)
theorem clz (f : VForm) : Statement (.clz f) :=
  ofV 0x0E 0 f rfl (by decide) (fun h w hf hm => by subst hf; rw [hm]; rfl)
theorem brev (f : VForm) : Statement (.brev f) :=
  ofV 0x0F 0 f rfl (by decide) (fun h w hf hm => by subst hf; rw [hm]; rfl)
theorem bfe (m : Ext) (f : VForm) : Statement (.bfe m f) :=
  ofV 0x10 m.minor f rfl (by decide) (fun h w hf hm => by subst hf; rw [hm]; cases m <;> rfl)
theorem bfi (f : VForm) : Statement (.bfi f) :=
  ofV 0x11 0 f rfl (by decide) (fun h w hf hm => by subst hf; rw [hm]; rfl)
theorem icmp (m : ICond) (f : VForm) : Statement (.icmp m f) :=
  ofV 0x12 m.minor f rfl (by decide) (fun h w hf hm => by subst hf; rw [hm]; cases m <;> rfl)
theorem sel (f : VForm) : Statement (.sel f) :=
  ofV 0x13 0 f rfl (by decide) (fun h w hf hm => by subst hf; rw [hm]; rfl)
theorem mov (f : VForm) : Statement (.mov f) :=
  ofV 0x14 0 f rfl (by decide) (fun h w hf hm => by subst hf; rw [hm]; rfl)
theorem movi (f : IForm) : Statement (.movi f) :=
  ofI 0x15 0 f rfl (by decide) (fun h w hf hm => by subst hf; show one (minorI w) _ = _; rw [hm]; rfl)
theorem plop (f : VForm) : Statement (.plop f) :=
  ofV 0x16 0 f rfl (by decide) (fun h w hf hm => by subst hf; rw [hm]; rfl)
theorem dot4 (m : Sgn) (f : VForm) : Statement (.dot4 m f) :=
  ofV 0x17 m.minor f rfl (by decide) (fun h w hf hm => by subst hf; rw [hm]; cases m <;> rfl)
theorem fadd (f : VForm) : Statement (.fadd f) :=
  ofV 0x20 0 f rfl (by decide) (fun h w hf hm => by subst hf; rw [hm]; rfl)
theorem fsub (f : VForm) : Statement (.fsub f) :=
  ofV 0x21 0 f rfl (by decide) (fun h w hf hm => by subst hf; rw [hm]; rfl)
theorem fmul (f : VForm) : Statement (.fmul f) :=
  ofV 0x22 0 f rfl (by decide) (fun h w hf hm => by subst hf; rw [hm]; rfl)
theorem ffma (f : VForm) : Statement (.ffma f) :=
  ofV 0x23 0 f rfl (by decide) (fun h w hf hm => by subst hf; rw [hm]; rfl)
theorem fmin (f : VForm) : Statement (.fmin f) :=
  ofV 0x24 0 f rfl (by decide) (fun h w hf hm => by subst hf; rw [hm]; rfl)
theorem fmax (f : VForm) : Statement (.fmax f) :=
  ofV 0x25 0 f rfl (by decide) (fun h w hf hm => by subst hf; rw [hm]; rfl)
theorem fcmp (m : FCond) (f : VForm) : Statement (.fcmp m f) :=
  ofV 0x26 m.minor f rfl (by decide) (fun h w hf hm => by subst hf; rw [hm]; cases m <;> rfl)
theorem frnd (m : Rnd) (f : VForm) : Statement (.frnd m f) :=
  ofV 0x27 m.minor f rfl (by decide) (fun h w hf hm => by subst hf; rw [hm]; cases m <;> rfl)
theorem fclass (f : VForm) : Statement (.fclass f) :=
  ofV 0x28 0 f rfl (by decide) (fun h w hf hm => by subst hf; rw [hm]; rfl)
theorem frcp (f : VForm) : Statement (.frcp f) :=
  ofV 0x29 0 f rfl (by decide) (fun h w hf hm => by subst hf; rw [hm]; rfl)
theorem frsq (f : VForm) : Statement (.frsq f) :=
  ofV 0x29 1 f rfl (by decide) (fun h w hf hm => by subst hf; rw [hm]; rfl)
theorem fexp2 (f : VForm) : Statement (.fexp2 f) :=
  ofV 0x29 2 f rfl (by decide) (fun h w hf hm => by subst hf; rw [hm]; rfl)
theorem flog2 (f : VForm) : Statement (.flog2 f) :=
  ofV 0x29 3 f rfl (by decide) (fun h w hf hm => by subst hf; rw [hm]; rfl)
theorem fsin (f : VForm) : Statement (.fsin f) :=
  ofV 0x29 4 f rfl (by decide) (fun h w hf hm => by subst hf; rw [hm]; rfl)
theorem fcos (f : VForm) : Statement (.fcos f) :=
  ofV 0x29 5 f rfl (by decide) (fun h w hf hm => by subst hf; rw [hm]; rfl)
theorem cvt (m : CvtOp) (f : VForm) : Statement (.cvt m f) :=
  ofV 0x2A m.minor f rfl (by decide) (fun h w hf hm => by subst hf; rw [hm]; cases m <;> rfl)
theorem pkadd (m : Half) (f : VForm) : Statement (.pkadd m f) :=
  ofV 0x2B m.minor f rfl (by decide) (fun h w hf hm => by subst hf; rw [hm]; cases m <;> rfl)
theorem pkmul (m : Half) (f : VForm) : Statement (.pkmul m f) :=
  ofV 0x2C m.minor f rfl (by decide) (fun h w hf hm => by subst hf; rw [hm]; cases m <;> rfl)
theorem pkfma (m : Half) (f : VForm) : Statement (.pkfma m f) :=
  ofV 0x2D m.minor f rfl (by decide) (fun h w hf hm => by subst hf; rw [hm]; cases m <;> rfl)
theorem fmtset (f : IForm) : Statement (.fmtset f) :=
  ofI 0x2E 0 f rfl (by decide) (fun h w hf hm => by subst hf; show one (minorI w) _ = _; rw [hm]; rfl)
theorem fmtget (f : VForm) : Statement (.fmtget f) :=
  ofV 0x2F 0 f rfl (by decide) (fun h w hf hm => by subst hf; rw [hm]; rfl)
theorem lmul (f : VForm) : Statement (.lmul f) :=
  ofV 0x30 0 f rfl (by decide) (fun h w hf hm => by subst hf; rw [hm]; rfl)
theorem lsum (f : VForm) : Statement (.lsum f) :=
  ofV 0x31 0 f rfl (by decide) (fun h w hf hm => by subst hf; rw [hm]; rfl)
theorem shfl (m : ShflOp) (f : VForm) : Statement (.shfl m f) :=
  ofV 0x50 m.minor f rfl (by decide) (fun h w hf hm => by subst hf; rw [hm]; cases m <;> rfl)
theorem vote (m : VoteOp) (f : VForm) : Statement (.vote m f) :=
  ofV 0x51 m.minor f rfl (by decide) (fun h w hf hm => by subst hf; rw [hm]; cases m <;> rfl)
theorem redux (m : ReduxOp) (f : VForm) : Statement (.redux m f) :=
  ofV 0x52 m.minor f rfl (by decide) (fun h w hf hm => by subst hf; rw [hm]; cases m <;> rfl)
theorem ldb (m : LdbW) (f : MForm) : Statement (.ldb m f) :=
  ofM 0x60 m.minor f rfl (by decide) (fun h w hf hm => by subst hf; rw [hm]; cases m <;> rfl)
theorem stb (m : Width3) (f : SForm) : Statement (.stb m f) :=
  ofS 0x61 m.minor f rfl (by decide) (fun h w hf hm => by subst hf; rw [hm]; cases m <;> rfl)
theorem spill (f : VForm) : Statement (.spill f) :=
  ofV 0x62 0 f rfl (by decide) (fun h w hf hm => by subst hf; rw [hm]; rfl)
theorem fill (f : VForm) : Statement (.fill f) :=
  ofV 0x63 0 f rfl (by decide) (fun h w hf hm => by subst hf; rw [hm]; rfl)
theorem hbind (f : VForm) : Statement (.hbind f) :=
  ofV 0x70 0 f rfl (by decide) (fun h w hf hm => by subst hf; rw [hm]; rfl)
theorem hinfo (f : VForm) : Statement (.hinfo f) :=
  ofV 0x71 0 f rfl (by decide) (fun h w hf hm => by subst hf; rw [hm]; rfl)
theorem hinv (f : VForm) : Statement (.hinv f) :=
  ofV 0x72 0 f rfl (by decide) (fun h w hf hm => by subst hf; rw [hm]; rfl)
theorem ldt (f : MForm) : Statement (.ldt f) :=
  ofM 0x73 0 f rfl (by decide) (fun h w hf hm => by subst hf; rw [hm]; rfl)
theorem stt (f : SForm) : Statement (.stt f) :=
  ofS 0x74 0 f rfl (by decide) (fun h w hf hm => by subst hf; rw [hm]; rfl)
theorem ldg (m : Width3) (f : MForm) : Statement (.ldg m f) :=
  ofM 0x75 m.minor f rfl (by decide) (fun h w hf hm => by subst hf; rw [hm]; cases m <;> rfl)
theorem stg (m : Width3) (f : SForm) : Statement (.stg m f) :=
  ofS 0x76 m.minor f rfl (by decide) (fun h w hf hm => by subst hf; rw [hm]; cases m <;> rfl)
theorem atom (m : AtomOp) (f : MForm) : Statement (.atom m f) :=
  ofM 0x77 m.minor f rfl (by decide) (fun h w hf hm => by subst hf; rw [hm]; cases m <;> rfl)
theorem cas (f : MForm) : Statement (.cas f) :=
  ofM 0x78 0 f rfl (by decide) (fun h w hf hm => by subst hf; rw [hm]; rfl)
theorem lr (f : MForm) : Statement (.lr f) :=
  ofM 0x79 0 f rfl (by decide) (fun h w hf hm => by subst hf; rw [hm]; rfl)
theorem sc (f : MForm) : Statement (.sc f) :=
  ofM 0x7A 0 f rfl (by decide) (fun h w hf hm => by subst hf; rw [hm]; rfl)
theorem pref (f : MForm) : Statement (.pref f) :=
  ofM 0x7B 0 f rfl (by decide) (fun h w hf hm => by subst hf; rw [hm]; rfl)
theorem storeCommit (gid : Nat) (idx : Nat) : Statement (.storeCommit gid idx) := of_event rfl
theorem copyGrant (gid : Nat) (idx : Nat) : Statement (.copyGrant gid idx) := of_event rfl
theorem loadPerform (gid : Nat) (idx : Nat) (grant : Bool) : Statement (.loadPerform gid idx grant) := of_event rfl
theorem fence (m : FenceKind) (f : VForm) : Statement (.fence m f) :=
  ofV 0x80 m.minor f rfl (by decide) (fun h w hf hm => by subst hf; rw [hm]; cases m <;> rfl)
theorem arm (f : MForm) : Statement (.arm f) :=
  ofM 0x81 0 f rfl (by decide) (fun h w hf hm => by subst hf; rw [hm]; rfl)
theorem waitm (f : VForm) : Statement (.waitm f) :=
  ofV 0x82 0 f rfl (by decide) (fun h w hf hm => by subst hf; rw [hm]; rfl)
theorem waitmTimeout (r : SplitRef) : Statement (.waitmTimeout r) := of_event rfl
theorem time (f : VForm) : Statement (.time f) :=
  ofV 0x83 0 f rfl (by decide) (fun h w hf hm => by subst hf; rw [hm]; rfl)
theorem cpy (f : XForm) : Statement (.cpy f) :=
  ofX 0x84 0 f rfl (by decide) (fun h w hf hm => by subst hf; rw [hm]; rfl)
theorem gath (f : XForm) : Statement (.gath f) :=
  ofX 0x85 0 f rfl (by decide) (fun h w hf hm => by subst hf; rw [hm]; rfl)
theorem scat (f : XForm) : Statement (.scat f) :=
  ofX 0x86 0 f rfl (by decide) (fun h w hf hm => by subst hf; rw [hm]; rfl)
theorem coll (m : CollOp) (f : XForm) : Statement (.coll m f) :=
  ofX 0x87 m.minor f rfl (by decide) (fun h w hf hm => by subst hf; rw [hm]; cases m <;> rfl)
theorem engineSourceRead (o : OpRef) (piece : Nat) : Statement (.engineSourceRead o piece) := of_event rfl
theorem engineSectorCommit (o : OpRef) (piece : Nat) : Statement (.engineSectorCommit o piece) := of_event rfl
theorem engineScratchLand (o : OpRef) (piece : Nat) : Statement (.engineScratchLand o piece) := of_event rfl
theorem engineOpDone (o : OpRef) : Statement (.engineOpDone o) := of_event rfl
theorem engineOpFault (o : OpRef) (why : EngineFault) : Statement (.engineOpFault o why) := of_event rfl
theorem ftest (f : VForm) : Statement (.ftest f) :=
  ofV 0x88 0 f rfl (by decide) (fun h w hf hm => by subst hf; rw [hm]; rfl)
theorem fwait (f : VForm) : Statement (.fwait f) :=
  ofV 0x89 0 f rfl (by decide) (fun h w hf hm => by subst hf; rw [hm]; rfl)
theorem fcancel (f : VForm) : Statement (.fcancel f) :=
  ofV 0x8A 0 f rfl (by decide) (fun h w hf hm => by subst hf; rw [hm]; rfl)
theorem awinit (f : VForm) : Statement (.awinit f) :=
  ofV 0x8B 0 f rfl (by decide) (fun h w hf hm => by subst hf; rw [hm]; rfl)
theorem await (f : VForm) : Statement (.await f) :=
  ofV 0x8C 0 f rfl (by decide) (fun h w hf hm => by subst hf; rw [hm]; rfl)
theorem awadd (f : VForm) : Statement (.awadd f) :=
  ofV 0x8D 0 f rfl (by decide) (fun h w hf hm => by subst hf; rw [hm]; rfl)
theorem fork (f : XForm) : Statement (.fork f) :=
  ofX 0x8E 0 f rfl (by decide) (fun h w hf hm => by subst hf; rw [hm]; rfl)
theorem rdv (f : VForm) : Statement (.rdv f) :=
  ofV 0x8F 0 f rfl (by decide) (fun h w hf hm => by subst hf; rw [hm]; rfl)
theorem br (m : BrKind) (f : BForm) : Statement (.br m f) :=
  ofB 0x90 m.minor f rfl (by decide) (fun h w hf hm => by subst hf; rw [hm]; cases m <;> rfl)
theorem bra (f : BForm) : Statement (.bra f) :=
  ofB 0x91 0 f rfl (by decide) (fun h w hf hm => by subst hf; rw [hm]; rfl)
theorem jmpi (f : BForm) : Statement (.jmpi f) :=
  ofB 0x92 0 f rfl (by decide) (fun h w hf hm => by subst hf; rw [hm]; rfl)
theorem call (f : BForm) : Statement (.call f) :=
  ofB 0x93 0 f rfl (by decide) (fun h w hf hm => by subst hf; rw [hm]; rfl)
theorem calli (f : BForm) : Statement (.calli f) :=
  ofB 0x94 0 f rfl (by decide) (fun h w hf hm => by subst hf; rw [hm]; rfl)
theorem ret (f : BForm) : Statement (.ret f) :=
  ofB 0x95 0 f rfl (by decide) (fun h w hf hm => by subst hf; rw [hm]; rfl)
theorem kset (f : BForm) : Statement (.kset f) :=
  ofB 0x96 0 f rfl (by decide) (fun h w hf hm => by subst hf; rw [hm]; rfl)
theorem join (f : BForm) : Statement (.join f) :=
  ofB 0x97 0 f rfl (by decide) (fun h w hf hm => by subst hf; rw [hm]; rfl)
theorem joinw (f : BForm) : Statement (.joinw f) :=
  ofB 0x97 1 f rfl (by decide) (fun h w hf hm => by subst hf; rw [hm]; rfl)
theorem plset (f : VForm) : Statement (.plset f) :=
  ofV 0x98 0 f rfl (by decide) (fun h w hf hm => by subst hf; rw [hm]; rfl)
theorem plbr (f : BForm) : Statement (.plbr f) :=
  ofB 0x99 0 f rfl (by decide) (fun h w hf hm => by subst hf; rw [hm]; rfl)
theorem exit (f : VForm) : Statement (.exit f) :=
  ofV 0x9A 0 f rfl (by decide) (fun h w hf hm => by subst hf; rw [hm]; rfl)
theorem nop (f : VForm) : Statement (.nop f) :=
  ofV 0x9B 0 f rfl (by decide) (fun h w hf hm => by subst hf; rw [hm]; rfl)
theorem yield (f : VForm) : Statement (.yield f) :=
  ofV 0x9C 0 f rfl (by decide) (fun h w hf hm => by subst hf; rw [hm]; rfl)
theorem wdog (f : VForm) : Statement (.wdog f) :=
  ofV 0x9D 0 f rfl (by decide) (fun h w hf hm => by subst hf; rw [hm]; rfl)
theorem fairHoldExpire (gid : Nat) : Statement (.fairHoldExpire gid) := of_event rfl
theorem watchdog (gid : Nat) : Statement (.watchdog gid) := of_event rfl
theorem spawn (m : SpawnKind) (f : XForm) : Statement (.spawn m f) :=
  ofX 0xA0 m.minor f rfl (by decide) (fun h w hf hm => by subst hf; rw [hm]; cases m <;> rfl)
theorem seedbedTimer (core : Nat) (ctx : Nat) (key : Nat) : Statement (.seedbedTimer core ctx key) := of_event rfl
theorem launch (f : XForm) : Statement (.launch f) :=
  ofX 0xA1 0 f rfl (by decide) (fun h w hf hm => by subst hf; rw [hm]; rfl)
theorem launchNode (f : XForm) : Statement (.launchNode f) :=
  ofX 0xA1 1 f rfl (by decide) (fun h w hf hm => by subst hf; rw [hm]; rfl)
theorem wid (f : VForm) : Statement (.wid f) :=
  ofV 0xA2 0 f rfl (by decide) (fun h w hf hm => by subst hf; rw [hm]; rfl)
theorem barArrive (f : VForm) : Statement (.barArrive f) :=
  ofV 0xA3 0 f rfl (by decide) (fun h w hf hm => by subst hf; rw [hm]; rfl)
theorem barWait (f : VForm) : Statement (.barWait f) :=
  ofV 0xA3 1 f rfl (by decide) (fun h w hf hm => by subst hf; rw [hm]; rfl)
theorem barSync (f : VForm) : Statement (.barSync f) :=
  ofV 0xA3 2 f rfl (by decide) (fun h w hf hm => by subst hf; rw [hm]; rfl)
theorem feedpop (m : PopKind) (f : VForm) : Statement (.feedpop m f) :=
  ofV 0xA4 m.minor f rfl (by decide) (fun h w hf hm => by subst hf; rw [hm]; cases m <;> rfl)
theorem feedpush (f : VForm) : Statement (.feedpush f) :=
  ofV 0xA5 0 f rfl (by decide) (fun h w hf hm => by subst hf; rw [hm]; rfl)
theorem sleep (f : VForm) : Statement (.sleep f) :=
  ofV 0xA6 0 f rfl (by decide) (fun h w hf hm => by subst hf; rw [hm]; rfl)
theorem sleepTimeout (r : SplitRef) : Statement (.sleepTimeout r) := of_event rfl
theorem pairBind (f : VForm) : Statement (.pairBind f) :=
  ofV 0xA7 0 f rfl (by decide) (fun h w hf hm => by subst hf; rw [hm]; rfl)
theorem pairUnbind (f : VForm) : Statement (.pairUnbind f) :=
  ofV 0xA7 1 f rfl (by decide) (fun h w hf hm => by subst hf; rw [hm]; rfl)
theorem shape (f : XForm) : Statement (.shape f) :=
  ofX 0xB0 0 f rfl (by decide) (fun h w hf hm => by subst hf; rw [hm]; rfl)
theorem aballoc (f : XForm) : Statement (.aballoc f) :=
  ofX 0xB1 0 f rfl (by decide) (fun h w hf hm => by subst hf; rw [hm]; rfl)
theorem abfree (f : XForm) : Statement (.abfree f) :=
  ofX 0xB2 0 f rfl (by decide) (fun h w hf hm => by subst hf; rw [hm]; rfl)
theorem abgrant (f : XForm) : Statement (.abgrant f) :=
  ofX 0xB3 0 f rfl (by decide) (fun h w hf hm => by subst hf; rw [hm]; simp only [Instr.wellFormed, Bool.and_eq_true, beq_iff_eq] at h; have h1 : (xOf w).flags.getLsbD 1 = false := (by simpa [BitVec.getLsbD_extractLsb'] using congrArg (fun x => x.getLsbD 0) h.2); show one _ (if _ then _ else _) = _; rw [h1]; rfl)
theorem abgrantRevoke (f : XForm) : Statement (.abgrantRevoke f) :=
  ofX 0xB3 0 f rfl (by decide) (fun h w hf hm => by subst hf; rw [hm]; simp_all [parseMajor, one, Instr.wellFormed])
theorem aclr (f : XForm) : Statement (.aclr f) :=
  ofX 0xB7 0 f rfl (by decide) (fun h w hf hm => by subst hf; rw [hm]; rfl)
theorem mma (m : MmaFmt) (f : XForm) : Statement (.mma m f) :=
  ofX 0xB4 m.minor f rfl (by decide) (fun h w hf hm => by subst hf; rw [hm]; cases m <;> rfl)
theorem mmap (m : MmaFmt) (f : XForm) : Statement (.mmap m f) :=
  ofX 0xB5 m.minor f rfl (by decide) (fun h w hf hm => by subst hf; rw [hm]; cases m <;> rfl)
theorem guide (f : XForm) : Statement (.guide f) :=
  ofX 0xB6 0 f rfl (by decide) (fun h w hf hm => by subst hf; rw [hm]; rfl)
theorem sfence (f : XForm) : Statement (.sfence f) :=
  ofX 0xB8 0 f rfl (by decide) (fun h w hf hm => by subst hf; rw [hm]; rfl)
theorem arrayOpStart (cluster : Nat) : Statement (.arrayOpStart cluster) := of_event rfl
theorem arrayOpComplete (cluster : Nat) (pick : Nat) : Statement (.arrayOpComplete cluster pick) := of_event rfl
theorem pairWaitExpire (cluster : Nat) : Statement (.pairWaitExpire cluster) := of_event rfl
theorem ard (f : XForm) : Statement (.ard f) :=
  ofX 0xB9 0 f rfl (by decide) (fun h w hf hm => by subst hf; rw [hm]; rfl)
theorem awr (f : XForm) : Statement (.awr f) :=
  ofX 0xBA 0 f rfl (by decide) (fun h w hf hm => by subst hf; rw [hm]; rfl)
theorem trbp (f : XForm) : Statement (.trbp f) :=
  ofX 0xBB 0 f rfl (by decide) (fun h w hf hm => by subst hf; rw [hm]; rfl)
theorem trap (f : YForm) : Statement (.trap f) :=
  ofY 0xD0 0 f rfl (by decide) (fun h w hf hm => by subst hf; rw [hm]; rfl)
theorem tret (f : YForm) : Statement (.tret f) :=
  ofY 0xD1 0 f rfl (by decide) (fun h w hf hm => by subst hf; rw [hm]; rfl)
theorem rdsr (f : YForm) : Statement (.rdsr f) :=
  ofY 0xD2 0 f rfl (by decide) (fun h w hf hm => by subst hf; rw [hm]; rfl)
theorem wrsr (f : YWForm) : Statement (.wrsr f) :=
  ofYW 0xD3 0 f rfl (by decide) (fun h w hf hm => by subst hf; rw [hm]; rfl)
theorem place (f : YForm) : Statement (.place f) :=
  ofY 0xD4 0 f rfl (by decide) (fun h w hf hm => by subst hf; rw [hm]; rfl)
theorem placeRestore (f : YForm) : Statement (.placeRestore f) :=
  ofY 0xD4 1 f rfl (by decide) (fun h w hf hm => by subst hf; rw [hm]; rfl)
theorem evict (f : YForm) : Statement (.evict f) :=
  ofY 0xD5 0 f rfl (by decide) (fun h w hf hm => by subst hf; rw [hm]; rfl)
theorem evictDestroy (f : YForm) : Statement (.evictDestroy f) :=
  ofY 0xD5 1 f rfl (by decide) (fun h w hf hm => by subst hf; rw [hm]; rfl)
theorem evictSeal (f : YForm) : Statement (.evictSeal f) :=
  ofY 0xD5 2 f rfl (by decide) (fun h w hf hm => by subst hf; rw [hm]; rfl)
theorem evictDiscard (f : YForm) : Statement (.evictDiscard f) :=
  ofY 0xD5 3 f rfl (by decide) (fun h w hf hm => by subst hf; rw [hm]; rfl)
theorem evictionComplete (ctx : Nat) : Statement (.evictionComplete ctx) := of_event rfl
theorem cntrd (f : YForm) : Statement (.cntrd f) :=
  ofY 0xD6 0 f rfl (by decide) (fun h w hf hm => by subst hf; rw [hm]; rfl)
theorem bktrd (f : YForm) : Statement (.bktrd f) :=
  ofY 0xD7 0 f rfl (by decide) (fun h w hf hm => by subst hf; rw [hm]; rfl)
theorem keybind (f : YForm) : Statement (.keybind f) :=
  ofY 0xD8 0 f rfl (by decide) (fun h w hf hm => by subst hf; rw [hm]; rfl)
theorem gswitchSave (f : YForm) : Statement (.gswitchSave f) :=
  ofY 0xD9 0 f rfl (by decide) (fun h w hf hm => by subst hf; rw [hm]; rfl)
theorem gswitchRestore (f : YForm) : Statement (.gswitchRestore f) :=
  ofY 0xD9 1 f rfl (by decide) (fun h w hf hm => by subst hf; rw [hm]; rfl)
theorem bsad4 (f : VForm) : Statement (.bsad4 f) :=
  ofV 0xE4 0 f rfl (by decide) (fun h w hf hm => by subst hf; rw [hm]; rfl)
theorem groupRelease (gid : Nat) : Statement (.groupRelease gid) := of_event rfl
theorem launchComplete (launch : Nat) : Statement (.launchComplete launch) := of_event rfl
theorem blockAdmit (core : Nat) : Statement (.blockAdmit core) := of_event rfl
theorem stalledAccessRetry (ctx : Nat) (ipage : Nat) : Statement (.stalledAccessRetry ctx ipage) := of_event rfl
theorem tinvStage1 (actor : Nat) (target : Nat) (value : DWord) : Statement (.tinvStage1 actor target value) := of_event rfl
theorem tinvStage2 (actor : Nat) (target : Nat) (value : DWord) : Statement (.tinvStage2 actor target value) := of_event rfl
theorem htabWrite (actor : Nat) (lim : Bool) (value : DWord) : Statement (.htabWrite actor lim value) := of_event rfl
theorem registerWrite (t : RegTarget) : Statement (.registerWrite t) := of_event rfl
theorem packetSend (port : Nat) (vc : Nat) : Statement (.packetSend port vc) := of_event rfl
theorem packetDeliver (d : Delivery) : Statement (.packetDeliver d) := of_event rfl
theorem packetDiscard (port : Nat) (vc : Nat) (idx : Nat) : Statement (.packetDiscard port vc idx) := of_event rfl
theorem linkFault (port : Nat) : Statement (.linkFault port) := of_event rfl
theorem ptpMessage (p : PtpFacts) : Statement (.ptpMessage p) := of_event rfl
theorem offsetReport (position : Nat) (beyond : Bool) : Statement (.offsetReport position beyond) := of_event rfl
theorem offsetReportSend : Statement .offsetReportSend := of_event rfl
theorem timebadSet : Statement .timebadSet := of_event rfl
theorem timebadClear : Statement .timebadClear := of_event rfl
theorem gswitchWindowStart (ctx : Nat) : Statement (.gswitchWindowStart ctx) := of_event rfl
theorem gswitchSeal (ctx : Nat) : Statement (.gswitchSeal ctx) := of_event rfl
theorem gswitchWindfallSeal (ctx : Nat) : Statement (.gswitchWindfallSeal ctx) := of_event rfl
theorem gswitchReinject (ctx : Nat) : Statement (.gswitchReinject ctx) := of_event rfl
theorem gswitchResume (ctx : Nat) : Statement (.gswitchResume ctx) := of_event rfl
theorem nopPacket (q : QRef) : Statement (.nopPacket q) := of_event rfl
theorem kernelPacket (q : QRef) : Statement (.kernelPacket q) := of_event rfl
theorem graphPacket (q : QRef) : Statement (.graphPacket q) := of_event rfl
theorem waitallPacket (q : QRef) : Statement (.waitallPacket q) := of_event rfl
theorem waitanyPacket (q : QRef) : Statement (.waitanyPacket q) := of_event rfl
theorem waitPoll (q : QRef) : Statement (.waitPoll q) := of_event rfl
theorem signalPacket (q : QRef) : Statement (.signalPacket q) := of_event rfl
theorem feedPacket (q : QRef) : Statement (.feedPacket q) := of_event rfl
theorem copyPacket (q : QRef) : Statement (.copyPacket q) := of_event rfl
theorem fencePacket (q : QRef) : Statement (.fencePacket q) := of_event rfl
theorem packetComplete (q : QRef) (idx : Nat) : Statement (.packetComplete q idx) := of_event rfl
theorem doorbellWrite (q : QRef) : Statement (.doorbellWrite q) := of_event rfl
theorem wakeIntervalEnd (ctx : Nat) : Statement (.wakeIntervalEnd ctx) := of_event rfl
theorem waitQuantum (q : QRef) : Statement (.waitQuantum q) := of_event rfl
theorem mapTick : Statement .mapTick := of_event rfl
theorem watchListEval : Statement .watchListEval := of_event rfl
theorem queueDrained (q : QRef) : Statement (.queueDrained q) := of_event rfl
theorem graphNodeComplete (run : Nat) (node : Nat) : Statement (.graphNodeComplete run node) := of_event rfl
theorem graphRunEnd (run : Nat) : Statement (.graphRunEnd run) := of_event rfl
theorem bucketTick : Statement .bucketTick := of_event rfl
theorem sliceEnd (ctx : Nat) : Statement (.sliceEnd ctx) := of_event rfl
theorem eccScrub (core : Nat) : Statement (.eccScrub core) := of_event rfl
theorem heartwoodCheckpoint : Statement .heartwoodCheckpoint := of_event rfl
theorem heartwoodMismatch : Statement .heartwoodMismatch := of_event rfl
theorem powerManagerTick (p : PowerFacts) : Statement (.powerManagerTick p) := of_event rfl
theorem qcreate (fn : Nat) : Statement (.qcreate fn) := of_event rfl
theorem qreset (fn : Nat) : Statement (.qreset fn) := of_event rfl
theorem qdestroy (fn : Nat) : Statement (.qdestroy fn) := of_event rfl
theorem qpin (fn : Nat) : Statement (.qpin fn) := of_event rfl
theorem pasiddrain (fn : Nat) : Statement (.pasiddrain fn) := of_event rfl
theorem pasidRelease (pasid : Nat) : Statement (.pasidRelease pasid) := of_event rfl
theorem gangjoin (fn : Nat) : Statement (.gangjoin fn) := of_event rfl
theorem pathset (fn : Nat) : Statement (.pathset fn) := of_event rfl
theorem partset (fn : Nat) : Statement (.partset fn) := of_event rfl
theorem resetCore (fn : Nat) : Statement (.resetCore fn) := of_event rfl
theorem resetDie (fn : Nat) : Statement (.resetDie fn) := of_event rfl
theorem resetDevice (fn : Nat) : Statement (.resetDevice fn) := of_event rfl
theorem timeset (fn : Nat) : Statement (.timeset fn) := of_event rfl
theorem coreControlError (core : Nat) : Statement (.coreControlError core) := of_event rfl
theorem dieControlError (die : Nat) : Statement (.dieControlError die) := of_event rfl
theorem dieOvertemp (die : Nat) : Statement (.dieOvertemp die) := of_event rfl
theorem firmwareWatchdog : Statement .firmwareWatchdog := of_event rfl
theorem powerGood (b : BootFacts) : Statement (.powerGood b) := of_event rfl
theorem keybindRequest (r : KeybindReq) : Statement (.keybindRequest r) := of_event rfl
theorem getCertificate : Statement .getCertificate := of_event rfl
theorem challenge : Statement .challenge := of_event rfl
theorem getMeasurements : Statement .getMeasurements := of_event rfl
theorem keyExchange : Statement .keyExchange := of_event rfl
theorem finish : Statement .finish := of_event rfl
theorem meas7Extend (digest : BitVec 512) : Statement (.meas7Extend digest) := of_event rfl
theorem firmwareUpdate (svn : Nat) (signed : Bool) (digest : BitVec 512) : Statement (.firmwareUpdate svn signed digest) := of_event rfl
theorem hostMemWrite (addr : Nat) (data : List Byte) : Statement (.hostMemWrite addr data) := of_event rfl
theorem hostMemRead (addr : Nat) (n : Nat) : Statement (.hostMemRead addr n) := of_event rfl
theorem hostSnoopInvalidate (addr : Nat) (data : List Byte) : Statement (.hostSnoopInvalidate addr data) := of_event rfl
theorem hostStoreAck (gid : Nat) (idx : Nat) : Statement (.hostStoreAck gid idx) := of_event rfl
theorem flitReplay (port : Nat) : Statement (.flitReplay port) := of_event rfl
theorem linkRetrainComplete (port : Nat) (delay : Nat) : Statement (.linkRetrainComplete port delay) := of_event rfl
theorem discardReportArrival (job : Nat) : Statement (.discardReportArrival job) := of_event rfl
theorem atsTranslationResponse (pasid : Nat) : Statement (.atsTranslationResponse pasid) := of_event rfl

end Sys2Proof.Laws.Encoding
end

