-- ==== Sys2Proof/Tests/Slice0.lean ====
section
/-! SUPPORT. Tests: ill-formed terms are refused, words written out from the spec's encodings decode to
their instructions, single steps give the values the spec works out, and every statement's hypotheses are
met by a concrete state. -/

namespace Sys2Proof.Tests

open Machine

set_option Elab.async false

/-! ## Ill-formed terms are refused (R32, R33, R37 to R43 and each entry's fields) -/

def vf : VForm := ⟨⟨false, false, 1⟩, .v 2, .v 0, .v 0, .always, 0, false, 0, 0⟩
def v2f : VForm := { vf with b := .v 3 }
def v3f : VForm := { v2f with c := .v 4 }
def v0f : VForm := ⟨.zero, .v 0, .v 0, .v 0, .always, 0, false, 0, 0⟩
def mf : MForm := ⟨⟨false, false, 1⟩, .v 2, .v 0, .always, 0, 5, false⟩
def sf : SForm := ⟨false, .v 1, .v 2, .v 0, .always, 0, 5, false⟩
def bf : BForm := ⟨.always, 0, 0, .v 0, 0, false⟩
def xf : XForm := ⟨.scalar 2, .v 0, .v 0, 0, 0⟩
def yf : YForm := ⟨⟨false, true, 2⟩, .scalar 4, 0, 0⟩

/-- A modifier, a source or a destination kind that an integer entry does not admit. -/
theorem test_ill_formed_integer :
    ¬ (Instr.iadd .wrap { v2f with rnd := 1 }).WF ∧ ¬ (Instr.imul { v2f with sat := true }).WF ∧ ¬ (Instr.and { v2f with moda := 1 }).WF ∧
    ¬ (Instr.shl { v2f with modb := 1 }).WF ∧ ¬ (Instr.iabs v2f).WF ∧ ¬ (Instr.isub .wrap v3f).WF ∧
    ¬ (Instr.mov { vf with dst := ⟨true, true, 0⟩ }).WF ∧ ¬ (Instr.mov { vf with dst := ⟨true, false, 1⟩ }).WF ∧
    ¬ (Instr.icmp .eq { v2f with dst := ⟨false, true, 8⟩ }).WF ∧ ¬ (Instr.movi ⟨⟨false, false, 1⟩, .v 2, 5⟩).WF ∧
    ¬ (Instr.plop { vf with a := .latch 0 }).WF ∧ ¬ (Instr.plop { vf with b := .v 256 }).WF ∧ ¬ (Instr.dot4 .s { v3f with rnd := 2 }).WF := by decide

/-- Source codes that name nothing: a latch above 15, special 17, constants 126 and 127. -/
theorem test_ill_formed_source :
    ¬ (Instr.mov { vf with a := .latch 16 }).WF ∧ ¬ (Instr.mov { vf with a := .special 17 }).WF ∧ ¬ (Instr.mov { vf with a := .const 126 }).WF ∧
    ¬ (Instr.mov { vf with a := .const 127 }).WF ∧ (Instr.mov { vf with a := .const 125 }).WF ∧ (Instr.mov { vf with a := .latch 15 }).WF ∧
    (Instr.mov { vf with a := .special 16 }).WF := by decide

theorem test_ill_formed_float :
    ¬ (Instr.fmin { v2f with rnd := 1 }).WF ∧ ¬ (Instr.fcmp .eq { v2f with sat := true }).WF ∧ ¬ (Instr.frnd .rz { vf with modb := 1 }).WF ∧
    ¬ (Instr.fclass { vf with moda := 1 }).WF ∧ ¬ (Instr.fsin { vf with b := .v 1 }).WF ∧ ¬ (Instr.cvt .f16f32 { vf with rnd := 1 }).WF ∧
    ¬ (Instr.cvt .f32s32 { vf with sat := true }).WF ∧ ¬ (Instr.cvt .f32f16 v2f).WF ∧ ¬ (Instr.fmtset ⟨⟨true, false, 0⟩, .v 0, 0x50000000⟩).WF ∧
    ¬ (Instr.fmtset ⟨⟨true, false, 0⟩, .v 0, 1⟩).WF ∧ ¬ (Instr.lmul { v2f with rnd := 1 }).WF := by decide

theorem test_ill_formed_lanes :
    ¬ (Instr.shfl .idx { v3f with dst := ⟨false, true, 1⟩ }).WF ∧ ¬ (Instr.vote .ballot vf).WF ∧ ¬ (Instr.vote .all { vf with dst := ⟨false, true, 8⟩ }).WF ∧
    ¬ (Instr.redux .add vf).WF ∧ (Instr.redux .add { vf with dst := ⟨true, false, 0⟩ }).WF := by decide

theorem test_ill_formed_memory :
    ¬ (Instr.ldb .w32 { mf with scope := 3 }).WF ∧ ¬ (Instr.ldb .w64 { mf with scope := 0, data := ⟨false, true, 1⟩ }).WF ∧
    ¬ (Instr.stb .w32 { sf with scope := 0, stream := true }).WF ∧ ¬ (Instr.stb .w32 { sf with scope := 0, top := true }).WF ∧
    ¬ (Instr.spill { v3f with dst := .zero, a := .scalar 1 }).WF ∧ ¬ (Instr.fill { v2f with dst := ⟨true, false, 0⟩ }).WF ∧ ¬ (Instr.hbind v2f).WF ∧
    ¬ (Instr.ldt { mf with coord := .const 16 }).WF ∧ ¬ (Instr.stt { sf with coord := .v 4, scope := 9 }).WF ∧ ¬ (Instr.ldg .w32 { mf with coord := .v 1 }).WF ∧
    ¬ (Instr.ldg .w64 { mf with data := ⟨false, true, 4⟩ }).WF ∧ ¬ (Instr.stg .w32 { sf with scope := 9 }).WF ∧ ¬ (Instr.atom .add { mf with stream := true }).WF ∧
    ¬ (Instr.lr { mf with scope := 2 }).WF ∧ ¬ (Instr.sc { mf with scope := 0 }).WF ∧ ¬ (Instr.pref mf).WF ∧ ¬ (Instr.pref { mf with data := .zero, scope := 5 }).WF ∧
    ¬ (Instr.arm { mf with scope := 1 }).WF ∧ ¬ (Instr.fence .acq { v0f with moda := 2, modb := 1 }).WF ∧ ¬ (Instr.fence .acq { v0f with rnd := 1 }).WF := by decide

theorem test_ill_formed_engines :
    ¬ (Instr.cpy { xf with a := .v 1 }).WF ∧ ¬ (Instr.cpy { xf with b := .scalar 1 }).WF ∧ ¬ (Instr.gath { xf with bank := 1 }).WF ∧
    ¬ (Instr.scat { xf with flags := 0x10 }).WF ∧ ¬ (Instr.coll .allGather { xf with b := .scalar 3, flags := 4 }).WF ∧ ¬ (Instr.ftest { vf with a := .v 16 }).WF ∧
    ¬ (Instr.fwait { v2f with a := .v 3 }).WF ∧ ¬ (Instr.fcancel { vf with a := .latch 1 }).WF ∧ ¬ (Instr.await { v2f with sat := true }).WF ∧
    ¬ (Instr.fork { xf with b := .const 17 }).WF ∧ ¬ (Instr.rdv vf).WF := by decide

theorem test_ill_formed_control :
    ¬ (Instr.br .uniform { bf with target := 4 }).WF ∧ ¬ (Instr.br .divergent { bf with hint := 3 }).WF ∧ ¬ (Instr.br .divergent { bf with res := true }).WF ∧
    ¬ (Instr.bra { bf with pred := ⟨false, 1⟩ }).WF ∧ ¬ (Instr.jmpi { bf with target := 8 }).WF ∧ ¬ (Instr.call { bf with kidx := 1 }).WF ∧
    ¬ (Instr.ret { bf with indir := .v 1 }).WF ∧ ¬ (Instr.kset { bf with hint := 1 }).WF ∧ ¬ (Instr.join { bf with pred := ⟨true, 7⟩ }).WF ∧
    ¬ (Instr.plbr { bf with kidx := 1 }).WF ∧ ¬ (Instr.plset v2f).WF ∧ ¬ (Instr.exit vf).WF ∧ ¬ (Instr.nop { v0f with sat := true }).WF := by decide

theorem test_ill_formed_groups :
    ¬ (Instr.spawn .plain { xf with b := .special 0 }).WF ∧ ¬ (Instr.spawn .payload { xf with c := .const 16 }).WF ∧ ¬ (Instr.launch { xf with a := .v 2 }).WF ∧
    ¬ (Instr.launchNode { xf with b := .scalar 4, flags := 1 }).WF ∧ ¬ (Instr.barSync vf).WF ∧ ¬ (Instr.barWait { v0f with b := .v 1 }).WF ∧
    ¬ (Instr.feedpop .blocking { v0f with dst := ⟨false, false, 1⟩ }).WF ∧ ¬ (Instr.feedpush v2f).WF ∧ ¬ (Instr.pairUnbind v2f).WF := by decide

theorem test_ill_formed_matrix :
    ¬ (Instr.shape { xf with bank := 1 }).WF ∧ ¬ (Instr.aballoc { xf with a := .const 16 }).WF ∧ ¬ (Instr.abfree { xf with flags := 1 }).WF ∧
    ¬ (Instr.abgrant { xf with bank := 1 }).WF ∧ ¬ (Instr.abgrantRevoke { xf with flags := 2 }).WF ∧ ¬ (Instr.mma .bf16 { xf with b := .scalar 1, c := .scalar 4, flags := 2 }).WF ∧
    (Instr.mma .int { xf with b := .scalar 1, c := .scalar 4, flags := 2 }).WF ∧ ¬ (Instr.mmap .f16 { xf with a := .latch 0, b := .scalar 1, c := .const 16 }).WF ∧
    ¬ (Instr.guide { xf with flags := 2 }).WF ∧ ¬ (Instr.sfence xf).WF ∧ ¬ (Instr.ard xf).WF ∧ ¬ (Instr.awr { xf with a := .v 1, flags := 0x40 }).WF ∧
    ¬ (Instr.trbp { xf with a := .v 1, c := .v 1 }).WF := by decide

theorem test_ill_formed_system :
    ¬ (Instr.trap yf).WF ∧ ¬ (Instr.tret { yf with dst := .zero, sysid := 1 }).WF ∧ ¬ (Instr.rdsr yf).WF ∧ ¬ (Instr.rdsr { yf with sysid := 0x1E }).WF ∧
    (Instr.rdsr { yf with sysid := 0x1D }).WF ∧ ¬ (Instr.wrsr ⟨true, .const 15, .scalar 6, 3, 0⟩).WF ∧ ¬ (Instr.place { yf with src := .v 4 }).WF ∧
    ¬ (Instr.evict { yf with res := 1 }).WF ∧ ¬ (Instr.cntrd { yf with sysid := 0x13 }).WF ∧ ¬ (Instr.bktrd { yf with sysid := 3 }).WF ∧
    ¬ (Instr.gswitchSave { yf with sysid := 1 }).WF := by decide

/-- The parts of the device that an event names must be there. -/
theorem test_ill_formed_events :
    ¬ (Instr.arrayOpStart 72).WF ∧ ¬ (Instr.blockAdmit 288).WF ∧ ¬ (Instr.packetSend 12 0).WF ∧ ¬ (Instr.packetSend 0 4).WF ∧ ¬ (Instr.qcreate 16).WF ∧
    ¬ (Instr.dieControlError 4).WF ∧ ¬ (Instr.nopPacket ⟨16, 0⟩).WF ∧ (Instr.blockAdmit 287).WF ∧ (Instr.packetSend 11 3).WF := by decide

/-! ## Words written out from the tables of R33, R36, R39, R43 and R47, for every instruction word -/

theorem test_decode_integer :
  decode 0x00140F40C0400580 = .ok (.iadd .ssat ⟨⟨false, true, 7⟩, .scalar 1, .latch 2, .v 0, ⟨true, 3⟩, 0, false, 0, 0⟩) ∧
  decode 0x0123FF8072200380 = .ok (.isub .usat ⟨⟨false, false, 511⟩, .special 0, .const 17, .v 0, ⟨false, 7⟩, 0, false, 0, 0⟩) ∧
  decode 0x0200020100600380 = .ok (.imul ⟨⟨false, false, 1⟩, .v 2, .v 3, .v 0, ⟨false, 7⟩, 0, false, 0, 0⟩) ∧
  decode 0x0310020100600380 = .ok (.imulh .z ⟨⟨false, false, 1⟩, .v 2, .v 3, .v 0, ⟨false, 7⟩, 0, false, 0, 0⟩) ∧
  decode 0x041800010077FB80 = .ok (.imad .ssat ⟨⟨true, false, 0⟩, .v 2, .v 3, .scalar 127, ⟨false, 7⟩, 0, false, 0, 0⟩) ∧
  decode 0x0510080280C00380 = .ok (.imin .z ⟨⟨false, false, 4⟩, .v 5, .v 6, .v 0, ⟨false, 7⟩, 0, false, 0, 0⟩) ∧
  decode 0x0600080280C00380 = .ok (.imax .s ⟨⟨false, false, 4⟩, .v 5, .v 6, .v 0, ⟨false, 7⟩, 0, false, 0, 0⟩) ∧
  decode 0x0700080280000380 = .ok (.iabs ⟨⟨false, false, 4⟩, .v 5, .v 0, .v 0, ⟨false, 7⟩, 0, false, 0, 0⟩) ∧
  decode 0x0800080280C00380 = .ok (.and ⟨⟨false, false, 4⟩, .v 5, .v 6, .v 0, ⟨false, 7⟩, 0, false, 0, 0⟩) ∧
  decode 0x0810080280C00380 = .ok (.or ⟨⟨false, false, 4⟩, .v 5, .v 6, .v 0, ⟨false, 7⟩, 0, false, 0, 0⟩) ∧
  decode 0x0820080280C00380 = .ok (.xor ⟨⟨false, false, 4⟩, .v 5, .v 6, .v 0, ⟨false, 7⟩, 0, false, 0, 0⟩) ∧
  decode 0x0830080280C00380 = .ok (.andn ⟨⟨false, false, 4⟩, .v 5, .v 6, .v 0, ⟨false, 7⟩, 0, false, 0, 0⟩) ∧
  decode 0x09000802F2800380 = .ok (.shl ⟨⟨false, false, 4⟩, .v 5, .const 20, .v 0, ⟨false, 7⟩, 0, false, 0, 0⟩) ∧
  decode 0x0A000802F2800380 = .ok (.shr ⟨⟨false, false, 4⟩, .v 5, .const 20, .v 0, ⟨false, 7⟩, 0, false, 0, 0⟩) := by decide

theorem test_decode_logic :
  decode 0x0B000802F2800380 = .ok (.sar ⟨⟨false, false, 4⟩, .v 5, .const 20, .v 0, ⟨false, 7⟩, 0, false, 0, 0⟩) ∧
  decode 0x0C000802F2800380 = .ok (.rol ⟨⟨false, false, 4⟩, .v 5, .const 20, .v 0, ⟨false, 7⟩, 0, false, 0, 0⟩) ∧
  decode 0x0D04080280000380 = .ok (.popc ⟨⟨false, true, 4⟩, .v 5, .v 0, .v 0, ⟨false, 7⟩, 0, false, 0, 0⟩) ∧
  decode 0x0E00080280000380 = .ok (.clz ⟨⟨false, false, 4⟩, .v 5, .v 0, .v 0, ⟨false, 7⟩, 0, false, 0, 0⟩) ∧
  decode 0x0F00080280000380 = .ok (.brev ⟨⟨false, false, 4⟩, .v 5, .v 0, .v 0, ⟨false, 7⟩, 0, false, 0, 0⟩) ∧
  decode 0x1010080280C00380 = .ok (.bfe .s ⟨⟨false, false, 4⟩, .v 5, .v 6, .v 0, ⟨false, 7⟩, 0, false, 0, 0⟩) ∧
  decode 0x1100080280C03B80 = .ok (.bfi ⟨⟨false, false, 4⟩, .v 5, .v 6, .v 7, ⟨false, 7⟩, 0, false, 0, 0⟩) ∧
  decode 0x12940402D0C00380 = .ok (.icmp .gez ⟨⟨false, true, 2⟩, .v 5, .scalar 6, .v 0, ⟨false, 7⟩, 0, false, 0, 0⟩) ∧
  decode 0x1300080280C03B80 = .ok (.sel ⟨⟨false, false, 4⟩, .v 5, .v 6, .v 7, ⟨false, 7⟩, 0, false, 0, 0⟩) ∧
  decode 0x1400090780000380 = .ok (.mov ⟨⟨false, false, 4⟩, .latch 15, .v 0, .v 0, ⟨false, 7⟩, 0, false, 0, 0⟩) ∧
  decode 0x15082400FFFFFFFF = .ok (.movi ⟨⟨false, true, 9⟩, .v 0, 0xFFFFFFFF⟩) ∧
  decode 0x160404E410000380 = .ok (.plop ⟨⟨false, true, 2⟩, .v 456, .v 128, .v 0, ⟨false, 7⟩, 0, false, 0, 0⟩) ∧
  decode 0x1710080280C03B90 = .ok (.dot4 .z ⟨⟨false, false, 4⟩, .v 5, .v 6, .v 7, ⟨false, 7⟩, 0, true, 0, 0⟩) := by decide

theorem test_decode_float :
  decode 0x20000201006003F6 = .ok (.fadd ⟨⟨false, false, 1⟩, .v 2, .v 3, .v 0, ⟨false, 7⟩, 3, true, 1, 2⟩) ∧
  decode 0x21000201006003C0 = .ok (.fsub ⟨⟨false, false, 1⟩, .v 2, .v 3, .v 0, ⟨false, 7⟩, 2, false, 0, 0⟩) ∧
  decode 0x2200020100600383 = .ok (.fmul ⟨⟨false, false, 1⟩, .v 2, .v 3, .v 0, ⟨false, 7⟩, 0, false, 0, 3⟩) ∧
  decode 0x2300020100602384 = .ok (.ffma ⟨⟨false, false, 1⟩, .v 2, .v 3, .v 4, ⟨false, 7⟩, 0, false, 1, 0⟩) ∧
  decode 0x2400020100600380 = .ok (.fmin ⟨⟨false, false, 1⟩, .v 2, .v 3, .v 0, ⟨false, 7⟩, 0, false, 0, 0⟩) ∧
  decode 0x2500020100600380 = .ok (.fmax ⟨⟨false, false, 1⟩, .v 2, .v 3, .v 0, ⟨false, 7⟩, 0, false, 0, 0⟩) ∧
  decode 0x2664020100600380 = .ok (.fcmp .num ⟨⟨false, true, 1⟩, .v 2, .v 3, .v 0, ⟨false, 7⟩, 0, false, 0, 0⟩) ∧
  decode 0x2730020100000380 = .ok (.frnd .down ⟨⟨false, false, 1⟩, .v 2, .v 0, .v 0, ⟨false, 7⟩, 0, false, 0, 0⟩) ∧
  decode 0x2800020100000380 = .ok (.fclass ⟨⟨false, false, 1⟩, .v 2, .v 0, .v 0, ⟨false, 7⟩, 0, false, 0, 0⟩) ∧
  decode 0x2900020100000380 = .ok (.frcp ⟨⟨false, false, 1⟩, .v 2, .v 0, .v 0, ⟨false, 7⟩, 0, false, 0, 0⟩) ∧
  decode 0x2910020100000380 = .ok (.frsq ⟨⟨false, false, 1⟩, .v 2, .v 0, .v 0, ⟨false, 7⟩, 0, false, 0, 0⟩) ∧
  decode 0x2920020100000380 = .ok (.fexp2 ⟨⟨false, false, 1⟩, .v 2, .v 0, .v 0, ⟨false, 7⟩, 0, false, 0, 0⟩) ∧
  decode 0x2930020100000380 = .ok (.flog2 ⟨⟨false, false, 1⟩, .v 2, .v 0, .v 0, ⟨false, 7⟩, 0, false, 0, 0⟩) ∧
  decode 0x2940020100000380 = .ok (.fsin ⟨⟨false, false, 1⟩, .v 2, .v 0, .v 0, ⟨false, 7⟩, 0, false, 0, 0⟩) ∧
  decode 0x2950020100000388 = .ok (.fcos ⟨⟨false, false, 1⟩, .v 2, .v 0, .v 0, ⟨false, 7⟩, 0, false, 2, 0⟩) := by decide

theorem test_decode_format :
  decode 0x2A80020172001BA0 = .ok (.cvt .f32lns ⟨⟨false, false, 1⟩, .v 2, .const 16, .v 3, ⟨false, 7⟩, 1, false, 0, 0⟩) ∧
  decode 0x2B10020100600380 = .ok (.pkadd .bf16 ⟨⟨false, false, 1⟩, .v 2, .v 3, .v 0, ⟨false, 7⟩, 0, false, 0, 0⟩) ∧
  decode 0x2C00020100600380 = .ok (.pkmul .f16 ⟨⟨false, false, 1⟩, .v 2, .v 3, .v 0, ⟨false, 7⟩, 0, false, 0, 0⟩) ∧
  decode 0x2D10020100602380 = .ok (.pkfma .bf16 ⟨⟨false, false, 1⟩, .v 2, .v 3, .v 4, ⟨false, 7⟩, 0, false, 0, 0⟩) ∧
  decode 0x2E1000004400FE1C = .ok (.fmtset ⟨⟨true, false, 0⟩, .v 0, 0x4400FE1C⟩) ∧
  decode 0x2F0403C880000380 = .ok (.fmtget ⟨⟨false, true, 1⟩, .const 17, .v 0, .v 0, ⟨false, 7⟩, 0, false, 0, 0⟩) ∧
  decode 0x3000020100600380 = .ok (.lmul ⟨⟨false, false, 1⟩, .v 2, .v 3, .v 0, ⟨false, 7⟩, 0, false, 0, 0⟩) ∧
  decode 0x31000600805E9380 = .ok (.lsum ⟨⟨false, false, 3⟩, .v 1, .v 2, .const 82, ⟨false, 7⟩, 0, false, 0, 0⟩) := by decide

theorem test_decode_lanes :
  decode 0x50200A02723CA380 = .ok (.shfl .down ⟨⟨false, false, 5⟩, .v 4, .const 17, .const 20, ⟨false, 7⟩, 0, false, 0, 0⟩) ∧
  decode 0x5114060100000380 = .ok (.vote .any ⟨⟨false, true, 3⟩, .v 2, .v 0, .v 0, ⟨false, 7⟩, 0, false, 0, 0⟩) ∧
  decode 0x5124060100000380 = .ok (.vote .ballot ⟨⟨false, true, 3⟩, .v 2, .v 0, .v 0, ⟨false, 7⟩, 0, false, 0, 0⟩) ∧
  decode 0x5224060100000380 = .ok (.redux .max ⟨⟨false, true, 3⟩, .v 2, .v 0, .v 0, ⟨false, 7⟩, 0, false, 0, 0⟩) := by decide

theorem test_decode_memory :
  decode 0x60201002800E0202 = .ok (.ldb .w128 ⟨⟨false, false, 8⟩, .v 5, .v 0, ⟨false, 7⟩, 0x10, 1, false⟩) ∧
  decode 0x611406028015FE00 = .ok (.stb .w64 ⟨false, .latch 3, .v 5, .v 0, ⟨true, 2⟩, 0xFF0, 0, false⟩) ∧
  decode 0x6200000A505C8380 = .ok (.spill ⟨⟨false, false, 0⟩, .v 20, .scalar 2, .const 16, ⟨false, 7⟩, 0, false, 0, 0⟩) ∧
  decode 0x6300294172000380 = .ok (.fill ⟨⟨false, false, 20⟩, .scalar 2, .const 16, .v 0, ⟨false, 7⟩, 0, false, 0, 0⟩) ∧
  decode 0x700409C900000380 = .ok (.hbind ⟨⟨false, true, 4⟩, .const 18, .v 0, .v 0, ⟨false, 7⟩, 0, false, 0, 0⟩) ∧
  decode 0x71040B4272200380 = .ok (.hinfo ⟨⟨false, true, 5⟩, .scalar 4, .const 17, .v 0, ⟨false, 7⟩, 0, false, 0, 0⟩) ∧
  decode 0x7204094080000380 = .ok (.hinv ⟨⟨false, true, 4⟩, .scalar 1, .v 0, .v 0, ⟨false, 7⟩, 0, false, 0, 0⟩) ∧
  decode 0x73000D41008E000B = .ok (.ldt ⟨⟨false, false, 6⟩, .scalar 2, .v 4, ⟨false, 7⟩, 0x0, 5, true⟩) ∧
  decode 0x74000D41008E0006 = .ok (.stt ⟨false, .v 6, .scalar 2, .v 4, ⟨false, 7⟩, 0x0, 3, false⟩) ∧
  decode 0x75100D41000FFF10 = .ok (.ldg .w64 ⟨⟨false, false, 6⟩, .scalar 2, .v 0, ⟨false, 7⟩, 0xFF8, 8, false⟩) ∧
  decode 0x76000D41000E000A = .ok (.stg .w32 ⟨false, .v 6, .scalar 2, .v 0, ⟨false, 7⟩, 0x0, 5, false⟩) ∧
  decode 0x77700C01010E000A = .ok (.atom .fadd ⟨⟨false, false, 6⟩, .v 2, .v 8, ⟨false, 7⟩, 0x0, 5, false⟩) ∧
  decode 0x78000C01010E000C = .ok (.cas ⟨⟨false, false, 6⟩, .v 2, .v 8, ⟨false, 7⟩, 0x0, 6, false⟩) ∧
  decode 0x79000C01000E0006 = .ok (.lr ⟨⟨false, false, 6⟩, .v 2, .v 0, ⟨false, 7⟩, 0x0, 3, false⟩) ∧
  decode 0x7A000C01010E0006 = .ok (.sc ⟨⟨false, false, 6⟩, .v 2, .v 8, ⟨false, 7⟩, 0x0, 3, false⟩) ∧
  decode 0x7B000001000E0008 = .ok (.pref ⟨⟨false, false, 0⟩, .v 2, .v 0, ⟨false, 7⟩, 0x0, 4, false⟩) := by decide

theorem test_decode_ordering :
  decode 0x8020000000000387 = .ok (.fence .full ⟨⟨false, false, 0⟩, .v 0, .v 0, .v 0, ⟨false, 7⟩, 0, false, 1, 3⟩) ∧
  decode 0x81000605000E000A = .ok (.arm ⟨⟨false, false, 3⟩, .v 10, .v 0, ⟨false, 7⟩, 0x0, 5, false⟩) ∧
  decode 0x820009C800000380 = .ok (.waitm ⟨⟨false, false, 4⟩, .const 16, .v 0, .v 0, ⟨false, 7⟩, 0, false, 0, 0⟩) ∧
  decode 0x83000DC800000380 = .ok (.time ⟨⟨false, false, 6⟩, .const 16, .v 0, .v 0, ⟨false, 7⟩, 0, false, 0, 0⟩) := by decide

theorem test_decode_engines :
  decode 0x840A228300140006 = .ok (.cpy ⟨.scalar 8, .scalar 3, .v 0, 0x500, 0x6⟩) ∧
  decode 0x850A200000140001 = .ok (.gath ⟨.scalar 8, .v 0, .v 0, 0x500, 0x1⟩) ∧
  decode 0x860A2000003C0038 = .ok (.scat ⟨.scalar 8, .v 0, .v 0, 0xF00, 0x38⟩) ∧
  decode 0x873A228300080003 = .ok (.coll .broadcast ⟨.scalar 8, .scalar 3, .v 0, 0x200, 0x3⟩) ∧
  decode 0x8800040280000380 = .ok (.ftest ⟨⟨false, false, 2⟩, .v 5, .v 0, .v 0, ⟨false, 7⟩, 0, false, 0, 0⟩) ∧
  decode 0x8904040280000380 = .ok (.fwait ⟨⟨false, true, 2⟩, .v 5, .v 0, .v 0, ⟨false, 7⟩, 0, false, 0, 0⟩) ∧
  decode 0x8A04050051200380 = .ok (.fcancel ⟨⟨false, true, 2⟩, .latch 0, .scalar 9, .v 0, ⟨false, 7⟩, 0, false, 0, 0⟩) ∧
  decode 0x8B00034350E00380 = .ok (.awinit ⟨⟨false, false, 1⟩, .scalar 6, .scalar 7, .v 0, ⟨false, 7⟩, 0, false, 0, 0⟩) ∧
  decode 0x8C04074350E00380 = .ok (.await ⟨⟨false, true, 3⟩, .scalar 6, .scalar 7, .v 0, ⟨false, 7⟩, 0, false, 0, 0⟩) ∧
  decode 0x8D08014350E00380 = .ok (.awadd ⟨⟨true, false, 0⟩, .scalar 6, .scalar 7, .v 0, ⟨false, 7⟩, 0, false, 0, 0⟩) ∧
  decode 0x8E0A0B9000268001 = .ok (.fork ⟨.scalar 2, .const 16, .v 0, 0x9A0, 0x1⟩) ∧
  decode 0x8F0001C880000380 = .ok (.rdv ⟨⟨false, false, 0⟩, .const 17, .v 0, .v 0, ⟨false, 7⟩, 0, false, 0, 0⟩) := by decide

theorem test_decode_control :
  decode 0x90181FFFFFF80002 = .ok (.br .uniform ⟨⟨true, 0⟩, 0, 0xFFFFFFC0, .v 0, 1, false⟩) ∧
  decode 0x9107000000080000 = .ok (.bra ⟨⟨false, 7⟩, 0, 0x40, .v 0, 0, false⟩) ∧
  decode 0x9207000000000018 = .ok (.jmpi ⟨⟨false, 7⟩, 0, 0x0, .v 3, 0, false⟩) ∧
  decode 0x9301000000200000 = .ok (.call ⟨⟨false, 1⟩, 0, 0x100, .v 0, 0, false⟩) ∧
  decode 0x9407000000001418 = .ok (.calli ⟨⟨false, 7⟩, 0, 0x0, .scalar 3, 0, false⟩) ∧
  decode 0x9502000000000000 = .ok (.ret ⟨⟨false, 2⟩, 0, 0x0, .v 0, 0, false⟩) ∧
  decode 0x9602E00000000000 = .ok (.kset ⟨⟨false, 2⟩, 7, 0x0, .v 0, 0, false⟩) ∧
  decode 0x9707600000000000 = .ok (.join ⟨⟨false, 7⟩, 3, 0x0, .v 0, 0, false⟩) ∧
  decode 0x9717800000000000 = .ok (.joinw ⟨⟨false, 7⟩, 4, 0x0, .v 0, 0, false⟩) ∧
  decode 0x9800020100000380 = .ok (.plset ⟨⟨false, false, 1⟩, .v 2, .v 0, .v 0, ⟨false, 7⟩, 0, false, 0, 0⟩) ∧
  decode 0x9907000000080014 = .ok (.plbr ⟨⟨false, 7⟩, 0, 0x40, .v 2, 2, false⟩) ∧
  decode 0x9A00000000000380 = .ok (.exit ⟨⟨false, false, 0⟩, .v 0, .v 0, .v 0, ⟨false, 7⟩, 0, false, 0, 0⟩) ∧
  decode 0x9B00000000000380 = .ok (.nop ⟨⟨false, false, 0⟩, .v 0, .v 0, .v 0, ⟨false, 7⟩, 0, false, 0, 0⟩) ∧
  decode 0x9C00000000000380 = .ok (.yield ⟨⟨false, false, 0⟩, .v 0, .v 0, .v 0, ⟨false, 7⟩, 0, false, 0, 0⟩) ∧
  decode 0x9D0403C880000380 = .ok (.wdog ⟨⟨false, true, 1⟩, .const 17, .v 0, .v 0, ⟨false, 7⟩, 0, false, 0, 0⟩) := by decide

theorem test_decode_groups :
  decode 0xA01A080301000000 = .ok (.spawn .payload ⟨.scalar 2, .v 3, .v 4, 0x0, 0x0⟩) ∧
  decode 0xA10A0A8400000000 = .ok (.launch ⟨.scalar 2, .scalar 4, .v 0, 0x0, 0x0⟩) ∧
  decode 0xA11A0A8400000000 = .ok (.launchNode ⟨.scalar 2, .scalar 4, .v 0, 0x0, 0x0⟩) ∧
  decode 0xA20005CB00000380 = .ok (.wid ⟨⟨false, false, 2⟩, .const 22, .v 0, .v 0, ⟨false, 7⟩, 0, false, 0, 0⟩) ∧
  decode 0xA30001C9F2000380 = .ok (.barArrive ⟨⟨false, false, 0⟩, .const 19, .const 16, .v 0, ⟨false, 7⟩, 0, false, 0, 0⟩) ∧
  decode 0xA31001C980000380 = .ok (.barWait ⟨⟨false, false, 0⟩, .const 19, .v 0, .v 0, ⟨false, 7⟩, 0, false, 0, 0⟩) ∧
  decode 0xA32001C9F2400380 = .ok (.barSync ⟨⟨false, false, 0⟩, .const 19, .const 18, .v 0, ⟨false, 7⟩, 0, false, 0, 0⟩) ∧
  decode 0xA414280000000380 = .ok (.feedpop .nonBlocking ⟨⟨false, true, 20⟩, .v 0, .v 0, .v 0, ⟨false, 7⟩, 0, false, 0, 0⟩) ∧
  decode 0xA504295050600380 = .ok (.feedpush ⟨⟨false, true, 20⟩, .scalar 32, .scalar 3, .v 0, ⟨false, 7⟩, 0, false, 0, 0⟩) ∧
  decode 0xA600054180000380 = .ok (.sleep ⟨⟨false, false, 2⟩, .scalar 3, .v 0, .v 0, ⟨false, 7⟩, 0, false, 0, 0⟩) ∧
  decode 0xA70405C8F2141B80 = .ok (.pairBind ⟨⟨false, true, 2⟩, .const 17, .const 16, .scalar 3, ⟨false, 7⟩, 0, false, 0, 0⟩) ∧
  decode 0xA71405C880000380 = .ok (.pairUnbind ⟨⟨false, true, 2⟩, .const 17, .v 0, .v 0, ⟨false, 7⟩, 0, false, 0, 0⟩) := by decide

theorem test_decode_matrix :
  decode 0xB00A0682A0C00000 = .ok (.shape ⟨.scalar 1, .scalar 2, .scalar 3, 0x0, 0x0⟩) ∧
  decode 0xB10A079400000000 = .ok (.aballoc ⟨.scalar 1, .const 20, .v 0, 0x0, 0x0⟩) ∧
  decode 0xB20A079400000000 = .ok (.abfree ⟨.scalar 1, .const 20, .v 0, 0x0, 0x0⟩) ∧
  decode 0xB30A0791E513D801 = .ok (.abgrant ⟨.scalar 1, .const 17, .const 20, 0x4F6, 0x1⟩) ∧
  decode 0xB300039100001802 = .ok (.abgrantRevoke ⟨.v 0, .const 17, .v 0, 0x6, 0x2⟩) ∧
  decode 0xB42A0682A1060003 = .ok (.mma .int ⟨.scalar 1, .scalar 2, .scalar 4, 0x180, 0x3⟩) ∧
  decode 0xB50A0683E4064001 = .ok (.mmap .bf16 ⟨.scalar 1, .scalar 3, .const 16, 0x190, 0x1⟩) ∧
  decode 0xB60A079400064001 = .ok (.guide ⟨.scalar 1, .const 20, .v 0, 0x190, 0x1⟩) ∧
  decode 0xB70A079400000000 = .ok (.aclr ⟨.scalar 1, .const 20, .v 0, 0x0, 0x0⟩) ∧
  decode 0xB800000000000000 = .ok (.sfence ⟨.v 0, .v 0, .v 0, 0x0, 0x0⟩) ∧
  decode 0xB9002284E4000011 = .ok (.ard ⟨.v 8, .scalar 4, .const 16, 0x0, 0x11⟩) ∧
  decode 0xBA002284E400002F = .ok (.awr ⟨.v 8, .scalar 4, .const 16, 0x0, 0x2F⟩) ∧
  decode 0xBB00300300000000 = .ok (.trbp ⟨.v 12, .v 3, .v 0, 0x0, 0x0⟩) := by decide

theorem test_decode_system :
  decode 0xD00001C880210000 = .ok (.trap ⟨⟨false, false, 0⟩, .const 17, 66, 0⟩) ∧
  decode 0xD100014380000000 = .ok (.tret ⟨⟨false, false, 0⟩, .scalar 7, 0, 0⟩) ∧
  decode 0xD20409C780020000 = .ok (.rdsr ⟨⟨false, true, 4⟩, .const 15, 4, 0⟩) ∧
  decode 0xD3071F4300018000 = .ok (.wrsr ⟨false, .const 15, .scalar 6, 3, 0⟩) ∧
  decode 0xD404054200000000 = .ok (.place ⟨⟨false, true, 2⟩, .scalar 4, 0, 0⟩) ∧
  decode 0xD414054200000000 = .ok (.placeRestore ⟨⟨false, true, 2⟩, .scalar 4, 0, 0⟩) ∧
  decode 0xD504054200000000 = .ok (.evict ⟨⟨false, true, 2⟩, .scalar 4, 0, 0⟩) ∧
  decode 0xD510054200000000 = .ok (.evictDestroy ⟨⟨false, false, 2⟩, .scalar 4, 0, 0⟩) ∧
  decode 0xD528014200000000 = .ok (.evictSeal ⟨⟨true, false, 0⟩, .scalar 4, 0, 0⟩) ∧
  decode 0xD534054200000000 = .ok (.evictDiscard ⟨⟨false, true, 2⟩, .scalar 4, 0, 0⟩) ∧
  decode 0xD604094100000000 = .ok (.cntrd ⟨⟨false, true, 4⟩, .scalar 2, 0, 0⟩) ∧
  decode 0xD7040D4180008000 = .ok (.bktrd ⟨⟨false, true, 6⟩, .scalar 3, 1, 0⟩) ∧
  decode 0xD804054200000000 = .ok (.keybind ⟨⟨false, true, 2⟩, .scalar 4, 0, 0⟩) ∧
  decode 0xD904054200000000 = .ok (.gswitchSave ⟨⟨false, true, 2⟩, .scalar 4, 0, 0⟩) ∧
  decode 0xD914054200000000 = .ok (.gswitchRestore ⟨⟨false, true, 2⟩, .scalar 4, 0, 0⟩) ∧
  decode 0xE400020100602380 = .ok (.bsad4 ⟨⟨false, false, 1⟩, .v 2, .v 3, .v 4, ⟨false, 7⟩, 0, false, 0, 0⟩) := by decide

/-- Words that no instruction has: a header's tag, a reserved major, an unlisted minor (R47, R49); and a word whose
unused field is not zero. -/
theorem test_decode_refuses :
    decode 0xF008000000000000 = .tagInSlot ∧ decode 0x1800000000000380 = .opcode ∧ decode 0x0030060080400380 = .opcode ∧
    decode 0x8880000000000380 = .opcode ∧ decode 0x9B00000000000381 = .reserved (.nop ⟨.zero, .v 0, .v 0, .v 0, .always, 0, false, 0, 1⟩) := by decide

/-! ## Small states -/

/-- A state that stands at `i`, alone in its clause, in a group of 16 lanes with 64 registers. -/
def stand (i : Instr) : State := State.reset.withFetchWord 64 (encode i).toNat

def noCtx : SlotCtx :=
  ⟨.seq 0, .vector, 0, 0, 0, 0, 0, default, default, default, default, 0, 0, 0, .clauseIssue, none⟩

def slotOf (s : State) (i : Instr) : SlotCtx := (slotCtx s i).getD noCtx

def atSlotB (s : State) (i : Instr) : Bool :=
  match slotCtx s i with
  | some k => (slotChecks k (s.getCtx k.ctx).auth).isNone && !mustWait k
  | none => false

theorem atSlot {s : State} {i : Instr} (h : atSlotB s i = true) : AtSlot s i (slotOf s i) := by
  unfold atSlotB at h
  split at h
  · rename_i k hk
    simp only [Bool.and_eq_true, Option.isNone_iff_eq_none, Bool.not_eq_true'] at h
    have e : slotOf s i = k := by simp [slotOf, hk]
    exact e ▸ ⟨hk, h.1, h.2⟩
  · cases h

/-- The group of `stand` is number 1, its block number 2, its context number 16. -/
def State.grp (s : State) (f : Group → Group) : State := s.updGroup 1 f

/-- Register n of lane l is v l. -/
def setV (n : Nat) (v : Nat → Word) (s : State) : State :=
  State.grp s (fun g => { g with win := (List.range 16).foldl (fun m l => m.set 0 (n * 16 + l) (v l)) g.win })
/-- Scalar n is x. -/
def setS (n : Nat) (x : Word) (s : State) : State := State.grp s (fun g => { g with sreg := g.sreg.set 0 n x })
/-- Predicate n is m. -/
def setP (n : Nat) (m : Mask) (s : State) : State := State.grp s (fun g => { g with preds := g.preds.set 0 n m })
/-- The FMT in force is w. -/
def setFmt (w : Word) (s : State) : State :=
  State.grp s (fun g => { g with splits := g.splits.map (fun x => x.map (fun sp => { sp with fmt := w, clause := sp.clause.map (fun c => { c with fmt := w }) })) })
/-- Scratchpad bytes of the block, little-endian. -/
def setScr (off n x : Nat) (s : State) : State := s.updBlock 2 (fun b => { b with data := putScratch b.data off (bytesOfNat n x) })

/-- What a step leaves. -/
def nextOf (o : Host.Outcome State Fault Refusal) : Option State :=
  match o with
  | .next t => some t
  | _ => none
def run (i : Instr) (s : State) : Option State := nextOf (exec i s)
/-- Register n of lane l after the step. -/
def vAfter (i : Instr) (s : State) (n l : Nat) : Option Word := (run i s).map (fun t => (t.getGroup 1).vreg n l)
def sAfter (i : Instr) (s : State) (n : Nat) : Option Word := (run i s).map (fun t => (t.getGroup 1).sregOf n)
def pAfter (i : Instr) (s : State) (n : Nat) : Option Mask := (run i s).map (fun t => (t.getGroup 1).pred n)
/-! ## Single steps: values the spec works out (R127 to R167, R231, R233) -/

/-- R127: the table's corner cases. -/
theorem test_integer_corners :
    vAfter (.iadd .ssat v2f) (setV 2 (fun _ => 0x7FFFFFFF) (setV 3 (fun _ => 1) (stand (.iadd .ssat v2f)))) 1 0 = some 0x7FFFFFFF ∧
    vAfter (.iadd .wrap v2f) (setV 2 (fun _ => 0xFFFFFFFF) (setV 3 (fun _ => 2) (stand (.iadd .wrap v2f)))) 1 15 = some 1 ∧
    vAfter (.isub .usat v2f) (setV 2 (fun _ => 1) (setV 3 (fun _ => 2) (stand (.isub .usat v2f)))) 1 3 = some 0 ∧
    vAfter (.imulh .s v2f) (setV 2 (fun _ => 0xFFFFFFFF) (setV 3 (fun _ => 2) (stand (.imulh .s v2f)))) 1 0 = some 0xFFFFFFFF ∧
    vAfter (.imulh .z v2f) (setV 2 (fun _ => 0xFFFFFFFF) (setV 3 (fun _ => 2) (stand (.imulh .z v2f)))) 1 0 = some 1 ∧
    vAfter (.iabs vf) (setV 2 (fun _ => 0x80000000) (stand (.iabs vf))) 1 0 = some 0x80000000 ∧
    vAfter (.shl v2f) (setV 2 (fun _ => 1) (setV 3 (fun _ => 32) (stand (.shl v2f)))) 1 0 = some 0 ∧
    vAfter (.sar v2f) (setV 2 (fun _ => 0x80000000) (setV 3 (fun _ => 40) (stand (.sar v2f)))) 1 0 = some 0xFFFFFFFF ∧
    vAfter (.clz vf) (stand (.clz vf)) 1 0 = some 32 ∧ vAfter (.brev vf) (setV 2 (fun _ => 1) (stand (.brev vf))) 1 0 = some 0x80000000 := by decide +kernel

/-- R128: the two worked examples. -/
theorem test_fields :
    vAfter (.bfe .s v2f) (setV 2 (fun _ => 0xF60) (setV 3 (fun _ => 0x804) (stand (.bfe .s v2f)))) 1 0 = some 0xFFFFFFF6 ∧
    vAfter (.bfi v3f) (setV 2 (fun _ => 5) (setV 3 (fun _ => 0x81C) (setV 4 (fun _ => 0xFFFFFFFF) (stand (.bfi v3f))))) 1 0 = some 0x5FFFFFFF := by decide +kernel

/-- R129: `icmp.ge.z p1, %lane, 4`; R131: `plop p2, p0, p1, p7, 0x80` is the AND of P0 and P1. -/
theorem test_predicates :
    pAfter (.icmp .gez ⟨⟨false, true, 1⟩, .special 0, .const 20, .v 0, .always, 0, false, 0, 0⟩)
      (stand (.icmp .gez ⟨⟨false, true, 1⟩, .special 0, .const 20, .v 0, .always, 0, false, 0, 0⟩)) 1 = some 0xFFF0 ∧
    pAfter (.plop ⟨⟨false, true, 2⟩, .v 0x1C8, .v 0x80, .v 0, .always, 0, false, 0, 0⟩)
      (setP 0 0x0FF0 (setP 1 0x00FF (stand (.plop ⟨⟨false, true, 2⟩, .v 0x1C8, .v 0x80, .v 0, .always, 0, false, 0, 0⟩)))) 2 = some 0x00F0 := by decide +kernel

/-- R169: the three worked forms. -/
theorem test_dot4 :
    let s (i : Instr) := setV 2 (fun _ => 0x80FF0102) (setV 3 (fun _ => 0x7F020304) (setV 4 (fun _ => 0x80000000) (stand i)))
    vAfter (.dot4 .s v3f) (s (.dot4 .s v3f)) 1 0 = some 0x7FFFC089 ∧
    vAfter (.dot4 .s { v3f with sat := true }) (s (.dot4 .s { v3f with sat := true })) 1 0 = some 0x80000000 ∧
    vAfter (.dot4 .z v3f) (s (.dot4 .z v3f)) 1 0 = some 0x80004189 := by decide +kernel

/-- R134: the worked `shfl.down v5, v4, 1, 4` over lanes 0 to 7, V4 = 10 * lane; R135: a ballot. -/
theorem test_lanes :
    let i : Instr := .shfl .down ⟨⟨false, false, 5⟩, .v 4, .const 17, .const 20, .always, 0, false, 0, 0⟩
    let s := State.grp (setV 4 (fun l => BitVec.ofNat 32 (10 * l)) (setV 5 (fun _ => 7) (stand i)))
      (fun g => { g with splits := g.splits.map (fun x => x.map (fun sp => { sp with mask := 0xFF, clause := sp.clause.map (fun c => { c with sub := 0xFF, subs := [0xFF, 0, 0, 0] }) })) })
    [0, 1, 2, 3, 4, 5, 6, 7, 8].map (vAfter i s 5) = [some 10, some 20, some 30, some 30, some 50, some 60, some 70, some 70, some 7] ∧
    sAfter (.vote .ballot { vf with dst := ⟨false, true, 3⟩ }) (setV 2 (fun l => BitVec.ofNat 32 (l % 2)) (stand (.vote .ballot { vf with dst := ⟨false, true, 3⟩ }))) 3 = some 0xAAAA ∧
    sAfter (.redux .max { vf with dst := ⟨false, true, 3⟩ }) (setV 2 (fun l => BitVec.ofInt 32 ((l : Int) - 20)) (stand (.redux .max { vf with dst := ⟨false, true, 3⟩ }))) 3 =
      some 0xFFFFFFFB := by decide +kernel

/-- R167: the kernel lnsdemo, its LSUM and LMUL; R165: 3.0 rounds to the code 0x16, and back to 0x40350800. -/
theorem test_lns :
    let a := setV 1 (fun _ => 0x1F015490)
    let b := setV 2 (fun _ => 0x01256C90)
    let lsum : Instr := .lsum ⟨⟨false, false, 3⟩, .v 1, .v 2, .const 82, .always, 0, false, 0, 0⟩
    let lmul : Instr := .lmul ⟨⟨false, false, 4⟩, .v 1, .v 2, .v 0, .always, 0, false, 0, 0⟩
    let toL : Instr := .cvt .f32lns ⟨⟨false, false, 4⟩, .v 1, .const 16, .v 0, .always, 0, false, 0, 0⟩
    let back : Instr := .cvt .lnsf32 ⟨⟨false, false, 4⟩, .v 1, .const 16, .v 0, .always, 0, false, 0, 0⟩
    vAfter lsum (a (b (setFmt 0x4400FE1C (stand lsum)))) 3 0 = some 0x402BA400 ∧ vAfter lmul (a (b (stand lmul))) 4 15 = some 0x1001BD10 ∧
    vAfter toL (setV 1 (fun _ => 0x40400000) (stand toL)) 4 0 = some 0x16 ∧ vAfter back (setV 1 (fun _ => 0x16) (stand back)) 4 0 = some 0x40350800 := by decide +kernel

/-- R144, R153: 1 + 2^-24 is a tie and rounds to the even 1; toward +infinity it goes up; R146: infinity minus
infinity raises INV. -/
theorem test_rounding :
    vAfter (.fadd v2f) (setV 2 (fun _ => 0x3F800000) (setV 3 (fun _ => 0x33800000) (stand (.fadd v2f)))) 1 0 = some 0x3F800000 ∧
    vAfter (.fadd { v2f with rnd := 2 }) (setV 2 (fun _ => 0x3F800000) (setV 3 (fun _ => 0x33800000) (stand (.fadd { v2f with rnd := 2 })))) 1 0 = some 0x3F800001 ∧
    vAfter (.fsub v2f) (setV 2 (fun _ => 0x7F800000) (setV 3 (fun _ => 0x7F800000) (stand (.fsub v2f)))) 1 0 = some 0x7FC00000 ∧
    ((run (.fsub v2f) (setV 2 (fun _ => 0x7F800000) (setV 3 (fun _ => 0x7F800000) (stand (.fsub v2f))))).map (fun t => (t.getGroup 1).fpstat)) = some 1 := by decide +kernel

/-- R231, R233: AWINIT with target 512 on generation 7; AWADD of 512 bytes makes a generation. -/
theorem test_arrival :
    let init : Instr := .awinit ⟨⟨false, false, 1⟩, .scalar 6, .scalar 7, .v 0, .always, 0, false, 0, 0⟩
    let add : Instr := .awadd ⟨⟨false, false, 1⟩, .scalar 6, .scalar 7, .v 0, .always, 0, false, 0, 0⟩
    ((run init (setS 6 0x400 (setS 7 512 (setScr 0x400 8 7 (stand init))))).map (fun t => (t.getBlock 2).nat 0x400 8)) = some 0x0002000000000007 ∧
    ((run add (setS 6 0x400 (setS 7 64 (setScr 0x400 8 0x0002000001C00007 (stand add))))).map (fun t => (t.getBlock 2).nat 0x400 8)) = some 0x0002000000000008 ∧
    vAfter add (setS 6 0x400 (setS 7 64 (setScr 0x400 8 0x0002000001C00007 (stand add)))) 1 4 = some 8 := by decide +kernel

/-- R138: a banked load of the group's own window reads V registers; a store of the highest lane stands. -/
theorem test_banked :
    let ld : Instr := .ldb .w32 ⟨⟨false, false, 8⟩, .v 5, .v 0, .always, 16, 0, false⟩
    let st : Instr := .stb .w32 ⟨false, .v 2, .v 5, .v 0, .always, 0, 0, false⟩
    vAfter ld (setV 0 (fun l => BitVec.ofNat 32 (100 + l)) (setV 5 (fun l => BitVec.ofNat 32 (4 * (l % 4))) (stand ld))) 8 1 = some 105 ∧
    vAfter st (setV 2 (fun l => BitVec.ofNat 32 l) (setV 5 (fun _ => 64) (stand st))) 1 0 = some 15 := by decide +kernel

/-- R106: KSET; R302, R297: a TRAP with CX.TVEC off is a double fault, which ends the group. -/
theorem test_control :
    let k : Instr := .kset { bf with pred := ⟨false, 2⟩, kidx := 7 }
    let t : Instr := .trap ⟨.zero, .const 17, 0x42, 0⟩
    ((run k (setP 2 0x00F0 (stand k))).map (fun t => (t.getGroup 1).kreg 7)) = some 0x00F0 ∧
    ((run t (stand t)).map (fun s => ((s.getCtx 16).dfault, (s.getGroup 1).liveLanes))) = some (true, 0) := by decide +kernel

/-- R298, R300: the same trap with a handler makes the split a handler split at CX.TVEC and queues its frame. -/
theorem test_trap_entry :
    let t : Instr := .trap ⟨.zero, .const 17, 0x42, 0⟩
    let s := (stand t).updCtx 16 (fun c => { c with tvec := 0x101 })
    ((run t s).map (fun s => (((s.getGroup 1).split? 0).map (fun sp => (sp.handler, sp.offset)), (s.getCtx 16).dfault))) =
      some (some (some 0, 0x100), false) := by decide +kernel

/-- R306, R307: RDSR of CX.CTXNUM and CX.TVEC; WRSR of CX.TVEC. -/
theorem test_registers :
    let num : Instr := .rdsr ⟨⟨false, true, 4⟩, .const 15, 0x11, 0⟩
    let wr : Instr := .wrsr ⟨false, .const 15, .scalar 6, 3, 0⟩
    sAfter num (stand num) 4 = some 16 ∧ ((run wr (setS 6 0x101 (stand wr))).map (fun t => (t.getCtx 16).tvec)) = some 0x101 := by decide +kernel

/-- A step runs what it fetches: the word of an instruction placed by withFetchWord. -/
theorem test_step_fetches :
    ((nextOf (step (stand (.movi ⟨⟨false, true, 9⟩, .v 0, 0x12345678⟩)))).map (fun t => (t.getGroup 1).sregOf 9)) = some 0x12345678 ∧
    ((nextOf (step (stand (.sfence ⟨.v 0, .v 0, .v 0, 0, 0⟩)))).map (fun t => (t.prog? 0 true).map (fun p => p.off))) = some (some 16) := by decide +kernel

/-! ## Every statement's hypotheses are met -/

theorem witness_IntegerResults : ∃ s k i f, intForm i = some f ∧ AtSlot s i k := ⟨_, _, _, _, rfl, atSlot (i := .iadd .ssat v2f) (s := stand (.iadd .ssat v2f)) (by decide +kernel)⟩

theorem witness_FieldResults : ∃ s k i f, fieldForm i = some f ∧ AtSlot s i k := ⟨_, _, _, _, rfl, atSlot (i := .bfi v3f) (s := stand (.bfi v3f)) (by decide +kernel)⟩

def plopI : Instr := .plop ⟨⟨false, true, 2⟩, .v 0x1C8, .v 0x80, .v 0, .always, 0, false, 0, 0⟩

theorem witness_CompareAndImmediate :
    (∃ s k m f, AtSlot s (.icmp m f) k) ∧ (∃ s k f, AtSlot s (.movi f) k) ∧ ∃ s k f, AtSlot s (.plop f) k :=
  ⟨⟨_, _, .gez, v2f, atSlot (s := stand (.icmp .gez v2f)) (by decide +kernel)⟩,
   ⟨_, _, ⟨⟨false, false, 7⟩, .v 0, 5⟩, atSlot (s := stand (.movi ⟨⟨false, false, 7⟩, .v 0, 5⟩)) (by decide +kernel)⟩,
   ⟨_, _, _, atSlot (i := plopI) (s := stand plopI) (by decide +kernel)⟩⟩

theorem witness_Dot4Results : (∃ s k f, AtSlot s (.dot4 .s f) k ∧ f.sat = true) ∧ ∃ s k f, AtSlot s (.dot4 .z f) k ∧ f.sat = false :=
  ⟨⟨_, _, { v3f with sat := true }, atSlot (s := stand (.dot4 .s { v3f with sat := true })) (by decide +kernel), rfl⟩,
   ⟨_, _, v3f, atSlot (s := stand (.dot4 .z v3f)) (by decide +kernel), rfl⟩⟩

/-- SHFL with segment size `c`. -/
def shflI (c : Src) : Instr := .shfl .down ⟨⟨false, false, 5⟩, .v 4, .const 17, c, .always, 0, false, 0, 0⟩
def shflF (c : Src) : VForm := ⟨⟨false, false, 5⟩, .v 4, .const 17, c, .always, 0, false, 0, 0⟩

/-- The smallest segment, 1, and the largest, the width, named as 0. -/
theorem witness_LaneOperations :
    (∃ s k m f, AtSlot s (.shfl m f) k ∧ (∀ l0 ∈ k.lanes, ∀ l ∈ k.lanes, k.rd s f.c l = k.rd s f.c l0) ∧
      (∀ l0 ∈ k.lanes, (∃ n, shflW s k f l0 = 2 ^ n) ∧ shflW s k f l0 ≤ k.g.hdr.width) ∧ k.lanes ≠ []) ∧
    (∃ s k m f, AtSlot s (.shfl m f) k ∧ (∀ l0 ∈ k.lanes, ∀ l ∈ k.lanes, k.rd s f.c l = k.rd s f.c l0) ∧
      (∀ l0 ∈ k.lanes, (∃ n, shflW s k f l0 = 2 ^ n) ∧ shflW s k f l0 ≤ k.g.hdr.width) ∧ k.lanes ≠ []) ∧
    (∃ s k m f, AtSlot s (.vote m f) k ∧ m = .ballot) ∧ ∃ s k m f, AtSlot s (.redux m f) k ∧ k.lanes ≠ [] :=
  ⟨⟨stand (shflI (.const 17)), _, .down, shflF (.const 17), atSlot (by decide +kernel), by decide +kernel,
      fun l0 h => ⟨⟨0, (by decide +kernel : ∀ l ∈ (slotOf (stand (shflI (.const 17))) (shflI (.const 17))).lanes, shflW (stand (shflI (.const 17)))
        (slotOf (stand (shflI (.const 17))) (shflI (.const 17))) (shflF (.const 17)) l = 2 ^ 0) l0 h⟩,
        (by decide +kernel : ∀ l ∈ (slotOf (stand (shflI (.const 17))) (shflI (.const 17))).lanes, shflW (stand (shflI (.const 17)))
        (slotOf (stand (shflI (.const 17))) (shflI (.const 17))) (shflF (.const 17)) l ≤ _) l0 h⟩, by decide +kernel⟩,
   ⟨stand (shflI (.const 16)), _, .down, shflF (.const 16), atSlot (by decide +kernel), by decide +kernel,
      fun l0 h => ⟨⟨4, (by decide +kernel : ∀ l ∈ (slotOf (stand (shflI (.const 16))) (shflI (.const 16))).lanes, shflW (stand (shflI (.const 16)))
        (slotOf (stand (shflI (.const 16))) (shflI (.const 16))) (shflF (.const 16)) l = 2 ^ 4) l0 h⟩,
        (by decide +kernel : ∀ l ∈ (slotOf (stand (shflI (.const 16))) (shflI (.const 16))).lanes, shflW (stand (shflI (.const 16)))
        (slotOf (stand (shflI (.const 16))) (shflI (.const 16))) (shflF (.const 16)) l ≤ _) l0 h⟩, by decide +kernel⟩,
   ⟨_, _, .ballot, { vf with dst := ⟨false, true, 3⟩ }, atSlot (s := stand (.vote .ballot { vf with dst := ⟨false, true, 3⟩ })) (by decide +kernel), rfl⟩,
   ⟨stand (.redux .min { vf with dst := ⟨true, false, 0⟩ }), _, .min, { vf with dst := ⟨true, false, 0⟩ }, atSlot (by decide +kernel), by decide +kernel⟩⟩

/-! ## Floating point -/

/-- One inside the range and one past the largest finite number. -/
theorem witness_Rounding :
    (∃ t ∈ [f32, f16, bf16], ∃ x : Ex, x.sticky = false ∧ exValue x < ((2 ^ (t.f + 2) - 1 : Nat) : Rat) * twoTo (-t.emin - t.f) ∧
      -(((2 ^ (t.f + 2) - 1 : Nat) : Rat) * twoTo (-t.emin - t.f)) < exValue x) ∧
    ∃ t ∈ [f32, f16, bf16], ∃ x : Ex, x.sticky = false ∧ ¬ exValue x < ((2 ^ (t.f + 2) - 1 : Nat) : Rat) * twoTo (-t.emin - t.f) :=
  ⟨⟨f16, by decide, ⟨true, 3, -1, false⟩, rfl, by decide +kernel, by decide +kernel⟩, ⟨f16, by decide, ⟨false, 65520, 0, false⟩, rfl, by decide +kernel⟩⟩

theorem witness_FloatArithmetic :
    (∃ x y z, fIsFin f32 x ∧ fIsFin f32 y ∧ fIsFin f32 z) ∧ (∃ x y, x < 2 ^ 32 ∧ y < 2 ^ 32 ∧ isNaN32 x ∧ isNaN32 y) ∧
    (∃ x y, x < 2 ^ 32 ∧ y < 2 ^ 32 ∧ isNaN32 x ∧ ¬ isNaN32 y) ∧ ∃ x y z, x < 2 ^ 32 ∧ y < 2 ^ 32 ∧ z < 2 ^ 32 ∧ ¬ isNaN32 x ∧ isNaN32 y ∧ isNaN32 z :=
  ⟨⟨0x7F7FFFFF, 1, 0x80000000, by unfold fIsFin; decide⟩, ⟨0x7F800001, 0xFFFFFFFF, by decide⟩, ⟨0xFFC00000, 0x7F800000, by decide⟩, ⟨0, 0x7FC00000, 0x7F800001, by decide⟩⟩

theorem witness_FclassResults : ∃ s k f, AtSlot s (.fclass f) k := ⟨_, _, vf, atSlot (s := stand (.fclass vf)) (by decide +kernel)⟩

/-- FMT with XTRAP. -/
def xtrapI : Instr := .fsub v2f
def xtrapS : State := setFmt 0x02 (setV 2 (fun _ => 0x7F800000) (setV 3 (fun _ => 0x7F800000) (stand xtrapI)))
def cvtI : Instr := .cvt .lnsf32 ⟨⟨false, false, 4⟩, .v 1, .const 20, .v 0, .always, 0, false, 0, 0⟩

theorem witness_FloatingCompletes :
    (∃ s k i f, floatResult i = some f ∧ AtSlot s i k ∧ indexFits i k s ∧ (fmtXTrap k.c.fmt = true → ∀ l ∈ k.lanes, (f k s l).flags % 4 = 0)) ∧
    ∃ s k i f, floatResult i = some f ∧ AtSlot s i k ∧ indexFits i k s ∧ fmtXTrap k.c.fmt = false ∧ ∃ g, i = .cvt .lnsf32 g ∧ ∀ l ∈ k.lanes, (k.rd s g.b l).toNat = 4 :=
  ⟨⟨setFmt 0x02 (stand (.fadd v2f)), _, _, _, rfl, atSlot (i := .fadd v2f) (by decide +kernel), trivial, by decide +kernel⟩,
   ⟨stand cvtI, _, _, _, rfl, atSlot (i := cvtI) (by decide +kernel), (by decide +kernel : ∀ l ∈ (slotOf (stand cvtI) cvtI).lanes, _), by decide +kernel,
    _, rfl, by decide +kernel⟩⟩

theorem witness_FloatTrap : ∃ s k i f, floatResult i = some f ∧ AtSlot s i k ∧ indexFits i k s ∧ fmtXTrap k.c.fmt = true ∧
    (∃ l ∈ k.lanes, (f k s l).flags % 4 ≠ 0) ∧ isSplit k.u = true :=
  ⟨xtrapS, _, _, _, rfl, atSlot (i := xtrapI) (by decide +kernel), trivial, by decide +kernel, by decide +kernel, by decide +kernel⟩

theorem witness_FormatRegister : (∃ s k f, AtSlot s (.fmtset f) k ∧ isSplit k.u = true) ∧ ∃ s k f, AtSlot s (.fmtget f) k ∧ isSplit k.u = true :=
  ⟨⟨stand (.fmtset ⟨⟨true, false, 0⟩, .v 0, 0x4400FE1C⟩), _, ⟨⟨true, false, 0⟩, .v 0, 0x4400FE1C⟩, atSlot (by decide +kernel), by decide +kernel⟩, ⟨stand (.fmtget vf), _, vf, atSlot (by decide +kernel), by decide +kernel⟩⟩

theorem witness_LnsExactSums : (∃ c, fIsFin f32 c) ∧ ∃ c, c < 64 := ⟨⟨0x80000000, by unfold fIsFin; decide⟩, 63, by decide⟩

/-! ## The banked store, tensors, addresses -/

theorem inrOf {α β : Type} {x : α ⊕ β} (h : x.isRight = true) : ∃ b, x = .inr b := by
  cases x with
  | inl a => cases h
  | inr b => exact ⟨b, rfl⟩

/-- Every lane's access is in order. -/
def allOk {F T : Type} (x : State × Option (List F × T)) : Bool :=
  match x.2 with
  | some ([], _) => true
  | _ => false

theorem okOf {F T : Type} {x : State × Option (List F × T)} (h : allOk x = true) : ∃ s t, x = (s, some ([], t)) := by
  obtain ⟨s, o⟩ := x
  match o, h with
  | some ([], t), _ => exact ⟨s, t, rfl⟩

/-- Banked forms of scope c. -/
def bmf (c : BitVec 4) : MForm := ⟨⟨false, false, 8⟩, .v 5, .v 0, .always, 16, c, false⟩
def bsf (c : BitVec 4) : SForm := ⟨false, .v 2, .v 5, .v 0, .always, 16, c, false⟩

theorem witness_BankedAccesses :
    (∃ s k m f, ∃ at' : Nat → BankSpace × Nat, AtSlot s (.ldb m f) k ∧ isSplit k.u = true ∧ m ≠ .bcast ∧ k.g.writeBacks = [] ∧
      (∀ l ∈ k.lanes, bankCheck (enteredCtx s k) (entered s k) f.scope.toNat (bankE k s f.addr f.offs l) (4 * ldbWords m) = .inr (at' l)) ∧ k.lanes ≠ []) ∧
    (∃ s k f b off l0, AtSlot s (.ldb .bcast f) k ∧ isSplit k.u = true ∧ k.g.writeBacks = [] ∧ l0 ∈ k.lanes ∧ (∀ l ∈ k.lanes, l0 ≤ l) ∧
      bankCheck (enteredCtx s k) (entered s k) f.scope.toNat (bankE k s f.addr f.offs l0) 4 = .inr (b, off)) ∧
    ∃ s k m f, ∃ at' : Nat → BankSpace × Nat, AtSlot s (.stb m f) k ∧ isSplit k.u = true ∧ k.g.writeBacks = [] ∧
      (∀ l ∈ k.lanes, bankCheck (enteredCtx s k) (entered s k) f.scope.toNat (bankE k s f.addr f.offs l) (4 * widthWords m) = .inr (at' l)) ∧ k.lanes ≠ [] :=
  ⟨⟨stand (.ldb .w128 (bmf 1)), _, .w128, bmf 1, fun _ => (.blk 2, 16), atSlot (by decide +kernel), by decide +kernel⟩,
   ⟨stand (.ldb .bcast (bmf 0)), _, bmf 0, .win 1, 16, 0, atSlot (by decide +kernel), by decide +kernel⟩,
   ⟨stand (.stb .w32 (bsf 2)), _, .w32, bsf 2, fun _ => (.win 1, 16), atSlot (by decide +kernel), by decide +kernel⟩⟩

/-- The two windows of scope `.core`: one that is there and one that is not; a misaligned lane. -/
theorem witness_BankedAddressing :
    (∃ k s e x, e < 2 ^ 24 ∧ WindowOf k s e x ∧ ∀ y, WindowOf k s e y → y = x) ∧ (∃ k s e, e < 2 ^ 24 ∧ ∀ x, ¬ WindowOf k s e x) ∧
    (∃ s k m f, AtSlot s (.ldb m f) k ∧ isSplit k.u = true ∧ m ≠ .bcast ∧ k.g.writeBacks = [] ∧
      ∃ l ∈ k.lanes, (match bankCheck (enteredCtx s k) (entered s k) f.scope.toNat (bankE k s f.addr f.offs l) (4 * ldbWords m) with
        | .inl x => some x | .inr _ => none).isSome) ∧
    ∃ s k m f, AtSlot s (.stb m f) k ∧ isSplit k.u = true ∧ k.g.writeBacks = [] ∧
      ∃ l ∈ k.lanes, (match bankCheck (enteredCtx s k) (entered s k) f.scope.toNat (bankE k s f.addr f.offs l) (4 * widthWords m) with
        | .inl x => some x | .inr _ => none).isSome := by
  refine ⟨⟨slotOf (stand (.ldb .w32 (bmf 2))) (.ldb .w32 (bmf 2)), stand (.ldb .w32 (bmf 2)), 0, (stand (.ldb .w32 (bmf 2))).getGroup 1, by decide, ?_, ?_⟩,
    ⟨slotOf (stand (.ldb .w32 (bmf 2))) (.ldb .w32 (bmf 2)), stand (.ldb .w32 (bmf 2)), 2 ^ 18, by decide, ?_⟩,
    ⟨setV 5 (fun l => if l = 3 then 2 else 0) (stand (.ldb .w32 (bmf 0))), _, .w32, bmf 0, atSlot (by decide +kernel), by decide +kernel⟩,
    ⟨setV 5 (fun l => if l = 3 then 0x1000 else 0) (stand (.stb .w32 (bsf 1))), _, .w32, bsf 1, atSlot (by decide +kernel), by decide +kernel⟩⟩
  · unfold WindowOf; decide +kernel
  · intro y hy
    have h := hy.1
    rw [show (stand (.ldb .w32 (bmf 2))).groups = [(stand (.ldb .w32 (bmf 2))).getGroup 1] by decide +kernel] at h
    simpa using h
  · intro x hx
    have h := hx.1
    have g := hx.2.2.1
    rw [show (stand (.ldb .w32 (bmf 2))).groups = [(stand (.ldb .w32 (bmf 2))).getGroup 1] by decide +kernel] at h
    rw [List.mem_singleton.mp h] at g
    exact absurd g (by decide +kernel)

/-- SPILL of one register and of the last registers, FILL of one. -/
def spillF : VForm := ⟨.zero, .v 63, .scalar 2, .scalar 3, .always, 0, false, 0, 0⟩
def fillF : VForm := ⟨⟨false, false, 63⟩, .scalar 2, .scalar 3, .v 0, .always, 0, false, 0, 0⟩
def spillS : State := setS 2 1 (stand (.spill spillF))
def fillS : State := setS 2 1 (stand (.fill fillF))

theorem witness_RegisterBursts :
    (∃ s k f first n o ps, AtSlot s (.spill f) k ∧ isSplit k.u = true ∧ f.a = .v first ∧ k.ex ≠ 0 ∧
      (∀ l ∈ k.lanes, (k.rd s f.b l).toNat = n ∧ (k.rd s f.c l).toNat = o) ∧ 1 ≤ n ∧ n ≤ 64 ∧ o % 16 = 0 ∧ first.toNat + n ≤ 8 * k.g.hdr.vregs8 ∧
      k.g.bb + k.g.maxDepth * 4 * k.g.hdr.width + o + n * 4 * k.g.hdr.width ≤ k.g.spillLim ∧ storeRoom (enteredCtx s k) = true ∧
      (burstPieces (enteredCtx s k) .write (k.g.spillBase + (k.g.spillLim - o - n * 4 * k.g.hdr.width)) (n * 4 * k.g.hdr.width) (entered s k)).2 = .inr ps) ∧
    ∃ s k f n o ps, AtSlot s (.fill f) k ∧ isSplit k.u = true ∧ k.ex ≠ 0 ∧ (∀ l ∈ k.lanes, (k.rd s f.a l).toNat = n ∧ (k.rd s f.b l).toNat = o) ∧ 1 ≤ n ∧ n ≤ 64 ∧
      o % 16 = 0 ∧ f.dst.idx.toNat + n ≤ 8 * k.g.hdr.vregs8 ∧ k.g.bb + o + n * 4 * k.g.hdr.width ≤ k.g.spillLim ∧ loadRoom (enteredCtx s k) = true ∧ k.g.queue = [] ∧
      (burstPieces (enteredCtx s k) .read (k.g.spillBase + (k.g.spillLim - o - n * 4 * k.g.hdr.width)) (n * 4 * k.g.hdr.width) (entered s k)).2 = .inr ps := by
  obtain ⟨p1, h1⟩ := inrOf (x := (burstPieces (enteredCtx spillS (slotOf spillS (.spill spillF))) .write (0x11000 + (0xF000 - 0 - 1 * 4 * 16)) (1 * 4 * 16)
    (entered spillS (slotOf spillS (.spill spillF)))).2) (by decide +kernel)
  obtain ⟨p2, h2⟩ := inrOf (x := (burstPieces (enteredCtx fillS (slotOf fillS (.fill fillF))) .read (0x11000 + (0xF000 - 0 - 1 * 4 * 16)) (1 * 4 * 16)
    (entered fillS (slotOf fillS (.fill fillF)))).2) (by decide +kernel)
  exact ⟨⟨spillS, slotOf spillS (.spill spillF), spillF, 63, 1, 0, p1, atSlot (by decide +kernel), by decide +kernel, rfl, by decide +kernel, by decide +kernel, by decide, by decide,
      by decide, by decide +kernel, by decide +kernel, by decide +kernel, h1⟩,
    ⟨fillS, slotOf fillS (.fill fillF), fillF, 1, 0, p2, atSlot (by decide +kernel), by decide +kernel, by decide +kernel, by decide +kernel, by decide, by decide,
      by decide, by decide +kernel, by decide +kernel, by decide +kernel, by decide +kernel, h2⟩⟩

/-- A layout record: base, type, rank, mode, scratchpad, first dimension, second dimension and its stride. -/
def recB (base ty rank mode scr d0 d1 st1 : Nat) : List Byte :=
  bytesOfNat 8 base ++ ([ty, rank + 8 * mode + 32 * scr, 3, 0, 0, 0, 0, 0].map (BitVec.ofNat 8)) ++ bytesOfNat 4 0 ++ bytesOfNat 4 d0 ++ bytesOfNat 4 d1 ++
    bytesOfNat 12 0 ++ bytesOfNat 6 st1 ++ bytesOfNat 18 0

/-- Record 0 is cached, its table lies at 0x4000 and holds two records. -/
def withRec (b : List Byte) (s : State) : State :=
  { (s.updCtx 16 (fun c => { c with htab := 0x4000, hlim := 2 })) with vis := { s.vis with hcache := [⟨0, 16, 0, b⟩] } }

def hinfoF : VForm := { v2f with dst := ⟨false, false, 1⟩ }
def hinvF : VForm := { vf with a := .const 17 }
def hinfoS : State := setV 2 (fun _ => 0x03000000) (setV 3 (fun l => BitVec.ofNat 32 (l + 2)) (withRec (recB 0x8000 4 1 0 0 16 0 0) (stand (.hinfo hinfoF))))
def hinvS : State := withRec (recB 0x8000 4 1 0 0 16 0 0) (stand (.hinv hinvF))

def isOkXlate (t : Tr) : Bool := match t with | .ok _ _ => true | _ => false
theorem xlateOf {t : Tr} (h : isOkXlate t = true) : ∃ pa ip, t = .ok pa ip := by
  cases t <;> first | exact ⟨_, _, rfl⟩ | cases h

theorem witness_HandleInstructions :
    (∃ s k f, ∃ b : Nat → List Byte, AtSlot s (.hbind f) k ∧ k.lanes ≠ [] ∧
      ∀ l ∈ k.lanes, (k.rd s f.a l).toNat < handleCount (s.getCtx k.ctx) ∧ Cached s k (k.rd s f.a l).toNat (b l)) ∧
    (∃ s k f, ∃ b : Nat → List Byte, AtSlot s (.hinfo f) k ∧ k.lanes ≠ [] ∧
      ∀ l ∈ k.lanes, (k.rd s f.a l).toNat % 2 ^ 24 < handleCount (s.getCtx k.ctx) ∧ Cached s k ((k.rd s f.a l).toNat % 2 ^ 24) (b l) ∧
        leAt (b l) 10 1 = (k.rd s f.a l).toNat / 2 ^ 24 ∧ (b l).length = 64) ∧
    ∃ s k f i pa ip, AtSlot s (.hinv f) k ∧ k.ex ≠ 0 ∧ (∀ l ∈ k.lanes, (k.rd s f.a l).toNat = i) ∧ i < handleCount (s.getCtx k.ctx) ∧
      (translate (entered s k) k.who k.core k.ctx (recordAddr (s.getCtx k.ctx) i) .rmw).2 = .ok pa ip ∧ s.vis.isOwned (pa / 64) = false ∧ k.g.queue = [] := by
  unfold Cached
  refine ⟨⟨withRec (recB 0x8000 4 1 0 0 16 0 0) (stand (.hbind vf)), _, vf, fun _ => recB 0x8000 4 1 0 0 16 0 0, atSlot (by decide +kernel), by decide +kernel⟩,
    ⟨hinfoS, _, hinfoF, fun _ => recB 0x8000 4 1 0 0 16 0 0, atSlot (by decide +kernel), by decide +kernel⟩, ?_⟩
  obtain ⟨pa, ip, h⟩ := xlateOf (t := (translate (entered hinvS (slotOf hinvS (.hinv hinvF))) (slotOf hinvS (.hinv hinvF)).who (slotOf hinvS (.hinv hinvF)).core
    (slotOf hinvS (.hinv hinvF)).ctx (recordAddr (hinvS.getCtx (slotOf hinvS (.hinv hinvF)).ctx) 1) .rmw).2) (by decide +kernel)
  exact ⟨hinvS, _, hinvF, 1, pa, ip, atSlot (by decide +kernel), by decide +kernel, by decide +kernel, by decide +kernel, h,
    by simp only [Vis.isOwned, show hinvS.vis.owned = [] by decide +kernel, List.any_nil], by decide +kernel⟩

def ldtF : MForm := ⟨⟨false, false, 6⟩, .v 2, .v 4, .always, 0, 5, false⟩
def sttF : SForm := ⟨false, .v 6, .v 2, .v 4, .always, 0, 5, false⟩
def tensorS (b : List Byte) (i : Instr) : State :=
  setV 2 (fun _ => 0x03000000) (setV 4 (fun l => BitVec.ofNat 32 l) (setV 5 (fun _ => 1) (withRec b (stand i))))
def ldtK (b : List Byte) : SlotCtx := slotOf (tensorS b (.ldt ldtF)) (.ldt ldtF)
abbrev Inside (b : List Byte) (l : Nat) : Prop :=
  ∀ j < recRank b, 0 ≤ (coordsOf (ldtK b) (tensorS b (.ldt ldtF)) (.v 4) 0 (recRank b) l).getD j 0 ∧
    (coordsOf (ldtK b) (tensorS b (.ldt ldtF)) (.v 4) 0 (recRank b) l).getD j 0 < recDim b j
abbrev ValidRec (b : List Byte) : Prop := recordValid b = true ∧ srcIn (ldtK b).g.vregs 128 (.v 4, recRank b) = true

/-- In bounds in memory, at 2^56, below 0, in the scratchpad, at its end; out of bounds in each mode; and loads and stores
whose every lane is in order. -/
theorem witness_TensorInstructions :
    (∃ b l, ValidRec b ∧ Inside b l ∧ 0 ≤ tensorSum b (coordsOf (ldtK b) (tensorS b (.ldt ldtF)) (.v 4) 0 (recRank b) l) 0) ∧
    (∃ b l, ValidRec b ∧ Inside b l ∧ tensorSum b (coordsOf (ldtK b) (tensorS b (.ldt ldtF)) (.v 4) 0 (recRank b) l) 0 = 2 ^ 56) ∧
    (∃ b l, ValidRec b ∧ Inside b l ∧ tensorSum b (coordsOf (ldtK b) (tensorS b (.ldt ldtF)) (.v 4) 0 (recRank b) l) 0 = -4) ∧
    (∃ b l, ValidRec b ∧ Inside b l ∧ recScratch b = true) ∧
    (∃ b l, ValidRec b ∧ ¬ Inside b l ∧ recMode b = 0) ∧ (∃ b l, ValidRec b ∧ ¬ Inside b l ∧ recMode b = 1) ∧ (∃ b l, ValidRec b ∧ ¬ Inside b l ∧ recMode b = 2) ∧
    (∃ s k f s1 s2 ts acs, AtSlot s (.ldt f) k ∧ k.ex ≠ 0 ∧ loadRoom (enteredCtx s k) = true ∧
      tensorLanes (enteredCtx s k) f.addr f.coord f.offs false (entered s k) = (s1, some ([], ts)) ∧
      translateLanes (enteredCtx s k) .read 1 (memOf ts) s1 = (s2, some ([], acs))) ∧
    ∃ s k f s1 s2 ts acs, AtSlot s (.stt f) k ∧ k.ex ≠ 0 ∧ storeRoom (enteredCtx s k) = true ∧
      tensorLanes (enteredCtx s k) f.addr f.coord f.offs true (entered s k) = (s1, some ([], ts)) ∧
      translateLanes (enteredCtx s k) .write 1 (memOf ts) s1 = (s2, some ([], acs)) := by
  refine ⟨⟨recB 0x8000 4 1 0 0 16 0 0, 15, by decide +kernel⟩, ⟨recB (2 ^ 56 - 4) 4 1 0 0 16 0 0, 1, by decide +kernel⟩,
    ⟨recB 0 4 2 0 0 16 2 (2 ^ 48 - 4), 0, by decide +kernel⟩, ⟨recB 0x100 4 1 0 1 16 0 0, 3, by decide +kernel⟩, ⟨recB 0x8000 4 1 0 0 15 0 0, 15, by decide +kernel⟩,
    ⟨recB 0x8000 4 1 1 0 15 0 0, 15, by decide +kernel⟩, ⟨recB 0x8000 4 1 2 0 15 0 0, 15, by decide +kernel⟩, ?_, ?_⟩
  · let s := tensorS (recB 0x8000 4 1 0 0 15 0 0) (.ldt ldtF)
    let k := slotOf s (.ldt ldtF)
    let x := tensorLanes (enteredCtx s k) ldtF.addr ldtF.coord ldtF.offs false (entered s k)
    have h : allOk (translateLanes (enteredCtx s k) .read 1 (memOf ((x.2.map (fun y => y.2)).getD [])) x.1) = true := by decide +kernel
    obtain ⟨s1, ts, h1⟩ := okOf (x := x) (by decide +kernel)
    rw [h1] at h
    obtain ⟨s2, acs, h2⟩ := okOf h
    exact ⟨s, k, ldtF, s1, s2, ts, acs, atSlot (by decide +kernel), by decide +kernel, by decide +kernel, h1, h2⟩
  · let s := tensorS (recB 0x8000 4 1 0 0 15 0 0) (.stt sttF)
    let k := slotOf s (.stt sttF)
    let x := tensorLanes (enteredCtx s k) sttF.addr sttF.coord sttF.offs true (entered s k)
    have h : allOk (translateLanes (enteredCtx s k) .write 1 (memOf ((x.2.map (fun y => y.2)).getD [])) x.1) = true := by decide +kernel
    obtain ⟨s1, ts, h1⟩ := okOf (x := x) (by decide +kernel)
    rw [h1] at h
    obtain ⟨s2, acs, h2⟩ := okOf h
    exact ⟨s, k, sttF, s1, s2, ts, acs, atSlot (by decide +kernel), by decide +kernel, by decide +kernel, h1, h2⟩

/-- Each lane's address in V2:V3: 0x8000 and a word per lane. -/
def addrS (i : Instr) : State := setV 2 (fun l => BitVec.ofNat 32 (0x8000 + 4 * l)) (stand i)
def ldgF : MForm := ⟨⟨false, false, 6⟩, .v 2, .v 0, .always, 0, 5, false⟩
def stgF : SForm := ⟨false, .v 6, .v 2, .v 0, .always, 0, 5, false⟩
def scF : MForm := { ldgF with coord := .v 8 }

theorem witness_AddressAccesses :
    (∃ s s2 k m f acs, AtSlot s (.ldg m f) k ∧ k.ex ≠ 0 ∧ loadRoom (enteredCtx s k) = true ∧
      translateLanes (enteredCtx s k) .read (4 * widthWords m) (k.lanes.map (fun l => (l, memAddr k s f.addr f.offs l))) (entered s k) = (s2, some ([], acs))) ∧
    (∃ s s2 k f acs, AtSlot s (.lr f) k ∧ k.ex ≠ 0 ∧ loadRoom (enteredCtx s k) = true ∧
      translateLanes (enteredCtx s k) .read 4 (k.lanes.map (fun l => (l, memAddr k s f.addr f.offs l))) (entered s k) = (s2, some ([], acs))) ∧
    (∃ s s2 k f acs, AtSlot s (.arm f) k ∧ k.ex ≠ 0 ∧ loadRoom (enteredCtx s k) = true ∧
      translateLanes (enteredCtx s k) .read 4 (k.lanes.map (fun l => (l, memAddr k s f.addr f.offs l))) (entered s k) = (s2, some ([], acs))) ∧
    (∃ s s2 k m f acs, AtSlot s (.stg m f) k ∧ k.ex ≠ 0 ∧ storeRoom (enteredCtx s k) = true ∧
      translateLanes (enteredCtx s k) .write (4 * widthWords m) (k.lanes.map (fun l => (l, memAddr k s f.addr f.offs l))) (entered s k) = (s2, some ([], acs))) ∧
    (∃ s s2 k f acs, AtSlot s (.sc f) k ∧ k.ex ≠ 0 ∧ storeRoom (enteredCtx s k) = true ∧
      translateLanes (enteredCtx s k) .rmw 4 (k.lanes.map (fun l => (l, memAddr k s f.addr f.offs l))) (entered s k) = (s2, some ([], acs))) ∧
    ∃ s k f, AtSlot s (.pref f) k := by
  refine ⟨?_, ?_, ?_, ?_, ?_, ⟨stand (.pref ⟨.zero, .v 2, .v 0, .always, 0, 4, false⟩), _, _, atSlot (i := .pref ⟨.zero, .v 2, .v 0, .always, 0, 4, false⟩) (by decide +kernel)⟩⟩
  · let s := addrS (.ldg .w32 ldgF)
    let k := slotOf s (.ldg .w32 ldgF)
    obtain ⟨s2, acs, h⟩ := okOf (x := translateLanes (enteredCtx s k) .read 4 (k.lanes.map (fun l => (l, memAddr k s ldgF.addr ldgF.offs l))) (entered s k)) (by decide +kernel)
    exact ⟨s, s2, k, .w32, ldgF, acs, atSlot (by decide +kernel), by decide +kernel, by decide +kernel, h⟩
  · let s := addrS (.lr ldgF)
    let k := slotOf s (.lr ldgF)
    obtain ⟨s2, acs, h⟩ := okOf (x := translateLanes (enteredCtx s k) .read 4 (k.lanes.map (fun l => (l, memAddr k s ldgF.addr ldgF.offs l))) (entered s k)) (by decide +kernel)
    exact ⟨s, s2, k, ldgF, acs, atSlot (by decide +kernel), by decide +kernel, by decide +kernel, h⟩
  · let s := addrS (.arm ldgF)
    let k := slotOf s (.arm ldgF)
    obtain ⟨s2, acs, h⟩ := okOf (x := translateLanes (enteredCtx s k) .read 4 (k.lanes.map (fun l => (l, memAddr k s ldgF.addr ldgF.offs l))) (entered s k)) (by decide +kernel)
    exact ⟨s, s2, k, ldgF, acs, atSlot (by decide +kernel), by decide +kernel, by decide +kernel, h⟩
  · let s := addrS (.stg .w32 stgF)
    let k := slotOf s (.stg .w32 stgF)
    obtain ⟨s2, acs, h⟩ := okOf (x := translateLanes (enteredCtx s k) .write 4 (k.lanes.map (fun l => (l, memAddr k s stgF.addr stgF.offs l))) (entered s k)) (by decide +kernel)
    exact ⟨s, s2, k, .w32, stgF, acs, atSlot (by decide +kernel), by decide +kernel, by decide +kernel, h⟩
  · let s := addrS (.sc scF)
    let k := slotOf s (.sc scF)
    obtain ⟨s2, acs, h⟩ := okOf (x := translateLanes (enteredCtx s k) .rmw 4 (k.lanes.map (fun l => (l, memAddr k s scF.addr scF.offs l))) (entered s k)) (by decide +kernel)
    exact ⟨s, s2, k, scF, acs, atSlot (by decide +kernel), by decide +kernel, by decide +kernel, h⟩

def atomF (c : BitVec 4) : MForm := { scF with scope := c }
/-- One lane executes. -/
def atomS : State := setP 1 1 (addrS (.atom .add { atomF 5 with pred := ⟨false, 1⟩ }))

/-- An atomic in the banked store, and one lane's at its home; each kind of entry, with its reservation and without. -/
theorem witness_Atomics :
    (∃ (s : State) (g : Group) (e : QEntry) (op : AtomOp) (v : Word), e.kind = .atom op v ∧ s.groups = [] ∧ g.gid = 0) ∧
    (∃ (e : QEntry) (c n : Word), e.kind = .cas c n) ∧ (∃ (g : Group) (e : QEntry) (x : Word), e.kind = .sc x ∧ g.resv.get e.lane .none = .held (sectorOf e.pa)) ∧
    (∃ (g : Group) (e : QEntry) (x : Word), e.kind = .sc x ∧ g.resv.get e.lane .none ≠ .held (sectorOf e.pa)) ∧
    (∃ s k i f, ∃ at' : Nat → BankSpace × Nat, isRmw i f ∧ AtSlot s i k ∧ isSplit k.u = true ∧ k.ex ≠ 0 ∧ f.scope.toNat < 3 ∧ k.g.writeBacks = [] ∧
      ∀ l ∈ k.lanes, bankCheck (enteredCtx s k) (entered s k) f.scope.toNat (bankE k s f.addr f.offs l) 4 = .inr (at' l)) ∧
    ∃ s s2 k i f acs, isRmw i f ∧ AtSlot s i k ∧ k.ex ≠ 0 ∧ 3 ≤ f.scope.toNat ∧ k.c.sent = 0 ∧
      translateLanes (enteredCtx s k) .rmw 4 (k.lanes.map (fun l => (l, memAddr k s f.addr f.offs l))) (entered s k) = (s2, some ([], acs)) ∧
      k.g.loadCount k.sp.mask + acs.length ≤ 15 ∧ k.g.storeCount k.sp.mask + acs.length ≤ 15 := by
  refine ⟨⟨State.reset, default, ⟨0, 0, 0, 0, 0, [], .atom .fadd 1, none⟩, .fadd, 1, rfl, rfl, rfl⟩, ⟨⟨0, 0, 0, 0, 0, [], .cas 1 2, none⟩, 1, 2, rfl⟩,
    ⟨{ (default : Group) with resv := [(3, .held 2)] }, ⟨3, 0, 128, 0, 0, [], .sc 1, none⟩, 1, rfl, by decide⟩,
    ⟨default, ⟨3, 0, 128, 0, 0, [], .sc 1, none⟩, 1, rfl, by decide⟩,
    ⟨stand (.cas (atomF 1)), _, _, atomF 1, fun _ => (.blk 2, 0), .inr rfl, atSlot (i := .cas (atomF 1)) (by decide +kernel), by decide +kernel⟩, ?_⟩
  let f : MForm := { atomF 5 with pred := ⟨false, 1⟩ }
  let k := slotOf atomS (.atom .add f)
  let x := translateLanes (enteredCtx atomS k) .rmw 4 (k.lanes.map (fun l => (l, memAddr k atomS f.addr f.offs l))) (entered atomS k)
  have n : ((x.2.map (fun y => y.2.length)).getD 0) = 1 := by decide +kernel
  obtain ⟨s2, acs, h⟩ := okOf (x := x) (by decide +kernel)
  rw [h] at n
  have n : acs.length = 1 := n
  exact ⟨atomS, s2, k, .atom .add f, f, acs, .inl ⟨.add, rfl⟩, atSlot (by decide +kernel), by decide +kernel, by decide +kernel, by decide +kernel, h,
    by rw [n]; decide +kernel, by rw [n]; decide +kernel⟩

def fenceF (a b : BitVec 2) : VForm := { v0f with moda := a, modb := b }
def waitmF : VForm := { vf with a := .const 16 }
def waitmS (m : SMap Monitor) : State := State.grp (stand (.waitm waitmF)) (fun g => { g with monitors := m })

theorem witness_FenceAndTime :
    (∃ s k m f, AtSlot s (.fence m f) k ∧ isSplit k.u = true ∧ k.ex ≠ 0 ∧ k.g.loadsOf k.sp.mask = [] ∧
      (m ≠ .acq → k.g.queueOf k.sp.mask = [] ∧ (4 ≤ f.moda.toNat * 4 + f.modb.toNat → k.sp.maxgwct ≤ s.now) ∧
        (7 ≤ f.moda.toNat * 4 + f.modb.toNat → k.sp.lastsend = 0 ∨ k.sp.lastsend + 2 ≤ s.now / 1024)) ∧ m = .full ∧ f.moda.toNat * 4 + f.modb.toNat = 8) ∧
    (∃ s k f, AtSlot s (.time f) k ∧ isSplit k.u = true) ∧
    (∃ s k f, AtSlot s (.waitm f) k ∧ isSplit k.u = true ∧ k.park = none ∧ k.ex ≠ 0 ∧ ∀ l ∈ k.lanes, k.g.monitors.get l .none = .none) ∧
    ∃ s k f, AtSlot s (.waitm f) k ∧ isSplit k.u = true ∧ k.park = none ∧ k.ex ≠ 0 ∧
      ∃ l ∈ k.lanes, k.g.monitors.get l .none = .fired ∨ k.g.monitors.get l .none = .lost :=
  ⟨⟨stand (.fence .full (fenceF 2 0)), _, .full, fenceF 2 0, atSlot (by decide +kernel), by decide +kernel⟩,
   ⟨stand (.time vf), _, vf, atSlot (by decide +kernel), by decide +kernel⟩,
   ⟨waitmS [], _, waitmF, atSlot (by decide +kernel), by decide +kernel⟩,
   ⟨waitmS [(2, .lost)], _, waitmF, atSlot (by decide +kernel), by decide +kernel⟩⟩

/-- The D bit of the leaf is set. -/
def dirtyS (s : State) : State := { s with mem := s.mem.set memDefault 0x20C00 0x7B }
/-- A state with one entry in a store queue, one outstanding load. -/
def storeS (pa : Nat) : State :=
  State.grp (dirtyS (stand (.mov vf))) (fun g => { g with queue := [⟨0, 0, pa, 0x8000, 0, [(pa, 7), (pa + 1, 8), (pa + 2, 9), (pa + 3, 10)], .store, none⟩] })
def loadOf (pa tag : Nat) : PLoad := ⟨0, tag, pa, 0x8000, 4, 5, .plain, ⟨⟨false, false, 6⟩, false, 0, 0, 0, 1⟩⟩
def loadS (pa : Nat) : State := State.grp (storeS 0x8000) (fun g => { g with loads := [loadOf pa 1] })
def noHold (x : Source) : Bool := match x with | .held => false | _ => true

abbrev CanCommit (host : Bool) : Prop :=
  ∃ (s : State) (gid idx : Nat) (g : Group) (e : QEntry), s.group? gid = some g ∧ g.queue[idx]? = some e ∧ mayCommit s g idx e = true ∧ e.kind = .store ∧ e.data ≠ [] ∧
    (homeOf e.pa = 4 ↔ host = true) ∧ e.wb = none ∧ (markDirty { s with mem := memWrite s.mem e.data } g.ctx e.ipage).2 = false

theorem witness_VisibilityEvents :
    CanCommit false ∧ CanCommit true ∧
    (∃ (s : State) (gid idx : Nat) (g : Group) (l : PLoad), s.group? gid = some g ∧ g.loads[idx]? = some l ∧ s.vis.isOwned (l.pa / 64) = false ∧ homeOf (l.pa / 64 * 64) ≠ 4) ∧
    (∃ (s : State) (gid idx : Nat) (g : Group) (l : PLoad), s.group? gid = some g ∧ g.loads[idx]? = some l ∧ l.kind = .plain ∧
      (∃ src, loadSource s g idx l = src ∧ (match src with | .held => False | _ => True)) ∧
      (∀ j < l.n, ∃ b, forward (g.queueOf (g.mates l.lane)) l.tag (l.pa + j) = some b) ∧ l.wb.dst.sup = false ∧ l.wb.dst.kind = false ∧ l.lane < g.hdr.width ∧ l.n = 4) ∧
    ∃ (s : State) (g : Group) (sp : Split) (p : Park) (till : Nat) (r : SplitRef), s.group? r.gid = some g ∧ g.split? r.entry = some sp ∧ sp.st = .parked p ∧ p.kind = .waitm (some till) ∧ p.wake = none ∧ till ≤ s.now := by
  refine ⟨⟨storeS 0x8000, 1, 0, (storeS 0x8000).getGroup 1, _, by decide +kernel, rfl, by decide +kernel, rfl, by decide +kernel, by decide +kernel, rfl, by decide +kernel⟩,
    ⟨storeS 0x18000000000, 1, 0, (storeS 0x18000000000).getGroup 1, _, by decide +kernel, rfl, by decide +kernel, rfl, by decide +kernel, by decide +kernel, rfl, by decide +kernel⟩,
    ⟨loadS 0x8000, 1, 0, (loadS 0x8000).getGroup 1, loadOf 0x8000 1, by decide +kernel, by decide +kernel, by decide +kernel, by decide +kernel⟩,
    ⟨loadS 0x8000, 1, 0, (loadS 0x8000).getGroup 1, loadOf 0x8000 1, by decide +kernel, by decide +kernel, rfl, ⟨_, rfl, ?_⟩, ?_, rfl, rfl, by decide +kernel, rfl⟩, ?_⟩
  · have h : noHold (loadSource (loadS 0x8000) ((loadS 0x8000).getGroup 1) 0 (loadOf 0x8000 1)) = true := by decide +kernel
    revert h
    cases loadSource (loadS 0x8000) ((loadS 0x8000).getGroup 1) 0 (loadOf 0x8000 1) <;> simp [noHold]
  · intro j hj
    exact Option.isSome_iff_exists.mp ((by decide +kernel : ∀ j < 4, (forward (((loadS 0x8000).getGroup 1).queueOf (((loadS 0x8000).getGroup 1).mates 0)) 1 (0x8000 + j)).isSome) j hj)
  · let p : Park := ⟨.waitm (some 0), 0xFFFF, .waitm waitmF, 0, none, []⟩
    let sp : Split := { (default : Split) with st := .parked p }
    let s := State.grp (stand (.waitm waitmF)) (fun g => { g with splits := [some sp, none, none, none] })
    exact ⟨s, s.getGroup 1, sp, p, 0, ⟨1, 0⟩, by decide +kernel, by decide +kernel, rfl, rfl, rfl, by decide +kernel⟩

/-! ## Engines -/

/-- Memory bytes, little-endian. -/
def setM (a n x : Nat) (s : State) : State := { s with mem := memWrite s.mem (bytesAt a (bytesOfNat n x)) }
/-- Scalars from n on. -/
def setSs (n : Nat) (xs : List Nat) (s : State) : State :=
  (xs.zip (List.range xs.length)).foldl (fun s x => setS (n + x.2) (BitVec.ofNat 32 x.1) s) s

def cpyF : XForm := ⟨.scalar 8, .v 0, .v 0, 0x500, 0⟩
def awF : XForm := ⟨.scalar 8, .scalar 3, .v 0, 0x500, 6⟩
/-- Two rows of 64 bytes from memory to memory; one row of 64 bytes to the scratchpad, with an arrival word; a gather of
two rows whose index table lies at 0x100 of the scratchpad. -/
def cpyS : State := setSs 8 [0x8000, 0, 0x9000, 0, 64, 2, 64, 64] (stand (.cpy cpyF))
def awS : State := setS 3 0x400 (setSs 8 [0x8000, 0, 0, 0, 64, 1, 0, 0] (stand (.cpy awF)))
def gathS : State := setScr 0x100 8 0x100000000 (setSs 8 [0x8000, 0, 0x9000, 0, 64, 2, 64, 0x100] (stand (.gath cpyF)))

/-- A gang member with a member list of two at 0x8000. -/
def gangS (s : State) : State := setM 0x8000 12 (2 + 1 * 2 ^ 80) (s.updCtx 16 (fun c => { c with gang := true, gangSize := 2, jobTag := 7 }))
def collF : XForm := ⟨.scalar 8, .scalar 3, .v 0, 0x500, 3⟩
def collS : State := gangS (setSs 8 [0x9000, 0, 0xA000, 0, 16, 1, 0x8000, 0] (stand (.coll .broadcast collF)))

def fork0F : XForm := ⟨.const 16, .const 16, .v 0, 0, 0⟩
def forkF : XForm := ⟨.scalar 2, .const 16, .v 0, 0x500, 1⟩
/-- A program record at 0x8000: code at 0x2000, 16 bytes, entry 0, for the sequencer. -/
def forkS : State := setM 0x8000 8 0x2000 (setM 0x8008 4 16 (setM 0x8018 1 1 (setSs 2 [0x8000, 0] (stand (.fork forkF)))))

theorem noToken {s : State} {k : SlotCtx} (h : k.g.fregs = []) : ∀ n, tokenStatus s k.ctx (k.g.freg n) ≠ 1 := by
  intro n
  simp [Group.freg, h, SMap.get, SMap.get?, tokenStatus]

def isRight {α β : Type} (x : State × (α ⊕ β)) : Bool := x.2.isRight
theorem rightOf {α β : Type} {x : State × (α ⊕ β)} (h : isRight x = true) : ∃ s b, x = (s, .inr b) := by
  obtain ⟨s, y⟩ := x
  cases y with
  | inl a => cases h
  | inr b => exact ⟨s, b, rfl⟩

theorem witness_EngineIssue :
    (∃ s k f, AtSlot s (copyInstr 0 f) k ∧ k.ex ≠ 0 ∧ CopyOk 0 f k s ∧ opRoom (enteredCtx s k) (entered s k) (f.bank.extractLsb' 8 4).toNat = true) ∧
    (∃ s k f, AtSlot s (copyInstr 0 f) k ∧ k.ex ≠ 0 ∧ CopyOk 0 f k s ∧ opRoom (enteredCtx s k) (entered s k) (f.bank.extractLsb' 8 4).toNat = true ∧
      f.flags.getLsbD 2 = true) ∧
    (∃ s k f, AtSlot s (copyInstr 1 f) k ∧ k.ex ≠ 0 ∧ CopyOk 1 f k s ∧ opRoom (enteredCtx s k) (entered s k) (f.bank.extractLsb' 8 4).toNat = true) ∧
    (∃ s s1 s2 k m f a hd b rank ms, AtSlot s (.coll m f) k ∧ isSplit k.u = true ∧ k.ex ≠ 0 ∧ f.a = .scalar a ∧ a.toNat ≤ 120 ∧
      (∀ l ∈ k.lanes, ∀ l' ∈ k.lanes, k.rd s f.b l = k.rd s f.b l') ∧
      (let d := descWord k f
       let list := d 6 + d 7 * 2 ^ 32
       let es := if d 5 % 16 = 1 ∨ d 5 % 16 = 2 then 2 else 4
       d 1 < 2 ^ 24 ∧ d 3 < 2 ^ 24 ∧ d 4 < 2 ^ 24 ∧ d 5 / 2 ^ 4 % 2 ^ 12 = 0 ∧ d 5 < 2 ^ 28 ∧ d 5 % 16 ≤ 4 ∧ (s.getCtx k.ctx).gang = true ∧ list % 64 = 0 ∧ list < 2 ^ 56 ∧
       readVirt (entered s k) k.who k.core k.ctx list 8 .read = (s1, .inr hd) ∧
       readVirt s1 k.who k.core k.ctx list (8 + 2 * leAt hd 0 2) .read = (s2, .inr b) ∧ memberList (s.getCtx k.ctx) b = some (rank, ms) ∧
       d 0 + d 1 * 2 ^ 32 + ms.length * d 4 * es ≤ 2 ^ 56 ∧ d 2 + d 3 * 2 ^ 32 + ms.length * d 4 * es ≤ 2 ^ 56 ∧ d 5 / 2 ^ 16 < ms.length ∧
       opRoom (enteredCtx s k) s2 (f.bank.extractLsb' 8 4).toNat = true)) ∧
    (∃ s k f i j, AtSlot s (.fork f) k ∧ isSplit k.u = true ∧ k.ex ≠ 0 ∧ f.a = .const i ∧ f.b = .const j ∧ s.forkOf k.gid = none ∧ k.g.queueOf k.sp.mask = [] ∧
      ∀ n, tokenStatus s k.ctx (k.g.freg n) ≠ 1) ∧
    ∃ s s1 s2 k f r j, AtSlot s (.fork f) k ∧ isSplit k.u = true ∧ k.ex ≠ 0 ∧ f.b = .const j ∧ readRec (enteredCtx s k) f.a (entered s k) = (s1, .inr (some r)) ∧
      k.rd64 s f.a 0 % 64 = 0 ∧ k.rd64 s f.a 0 < 2 ^ 56 ∧ r.ok true = true ∧ s.forkOf k.gid = none ∧ s.prog? k.cluster true = none ∧ k.g.queueOf k.sp.mask = [] ∧
      (∀ n, tokenStatus s k.ctx (k.g.freg n) ≠ 1) ∧ loadStore (enteredCtx s k) true r s1 = (s2, none) := by
  refine ⟨⟨cpyS, _, cpyF, atSlot (by decide +kernel), by decide +kernel, ⟨⟨8, rfl, by decide +kernel⟩, by decide +kernel, by decide +kernel, by decide +kernel, by decide +kernel,
      by decide +kernel, by decide +kernel, by decide +kernel, by decide +kernel, by decide +kernel⟩, by decide +kernel⟩,
    ⟨awS, _, awF, atSlot (by decide +kernel), by decide +kernel, ⟨⟨8, rfl, by decide +kernel⟩, by decide +kernel, by decide +kernel, by decide +kernel, by decide +kernel,
      by decide +kernel, by decide +kernel, by decide +kernel, by decide +kernel, by decide +kernel⟩, by decide +kernel, rfl⟩,
    ⟨gathS, _, cpyF, atSlot (by decide +kernel), by decide +kernel, ⟨⟨8, rfl, by decide +kernel⟩, by decide +kernel, by decide +kernel, by decide +kernel, by decide +kernel,
      by decide +kernel, by decide +kernel, by decide +kernel, by decide +kernel, by decide +kernel⟩, by decide +kernel⟩, ?_,
    ⟨stand (.fork fork0F), _, fork0F, 16, 16, atSlot (by decide +kernel), by decide +kernel, by decide +kernel, rfl, rfl, rfl, by decide +kernel, noToken (by decide +kernel)⟩, ?_⟩
  · let k := slotOf collS (.coll .broadcast collF)
    let x := readVirt (entered collS k) k.who k.core k.ctx 0x8000 8 .read
    let hd : List Byte := (match x.2 with | .inr b => b | _ => [])
    let y := readVirt x.1 k.who k.core k.ctx 0x8000 (8 + 2 * leAt hd 0 2) .read
    have hb : (match y.2 with | .inr b => decide (memberList (collS.getCtx k.ctx) b = some (0, [0, 1])) && opRoom (enteredCtx collS k) y.1 5 | _ => false) = true := by decide +kernel
    obtain ⟨s1, hd', h1⟩ := rightOf (x := x) (by decide +kernel)
    obtain ⟨s2, b, h2⟩ := rightOf (x := y) (by decide +kernel)
    have e1 : x.1 = s1 := by rw [h1]
    have e2 : hd = hd' := by show (match x.2 with | .inr b => b | _ => []) = hd'; rw [h1]
    rw [h2] at hb
    have h2' : readVirt s1 k.who k.core k.ctx 0x8000 (8 + 2 * leAt hd' 0 2) .read = (s2, .inr b) := by rw [← e1, ← e2]; exact h2
    simp only [Bool.and_eq_true, decide_eq_true_eq] at hb
    have hl : descWord k collF 6 + descWord k collF 7 * 2 ^ 32 = 0x8000 := by decide +kernel
    exact ⟨collS, s1, s2, k, .broadcast, collF, 8, hd', b, 0, [0, 1], atSlot (by decide +kernel), by decide +kernel, by decide +kernel, rfl, by decide, by decide +kernel,
      by decide +kernel, by decide +kernel, by decide +kernel, by decide +kernel, by decide +kernel, by decide +kernel, by decide +kernel, by decide +kernel, by decide +kernel,
      (by show readVirt _ _ _ _ (descWord k collF 6 + descWord k collF 7 * 2 ^ 32) 8 .read = _; rw [hl]; exact h1),
      (by show readVirt _ _ _ _ (descWord k collF 6 + descWord k collF 7 * 2 ^ 32) _ .read = _; rw [hl]; exact h2'), hb.1, by decide +kernel, by decide +kernel,
      by decide +kernel, hb.2⟩
  · let k := slotOf forkS (.fork forkF)
    let x := readRec (enteredCtx forkS k) (.scalar 2) (entered forkS k)
    have hx : (match x.2 with | .inr (some r) => r.ok true && (match (loadStore (enteredCtx forkS k) true r x.1).2 with | none => true | _ => false) | _ => false) = true := by
      decide +kernel
    obtain ⟨s1, o, h1⟩ := rightOf (x := x) (by decide +kernel)
    rw [h1] at hx
    cases o with
    | none => cases hx
    | some r =>
      simp only [Bool.and_eq_true] at hx
      have h3 : ∃ s2, loadStore (enteredCtx forkS k) true r s1 = (s2, none) := by
        revert hx
        rcases loadStore (enteredCtx forkS k) true r s1 with ⟨s2, e⟩
        cases e <;> simp
      obtain ⟨s2, h3⟩ := h3
      exact ⟨forkS, s1, s2, k, forkF, r, 16, atSlot (by decide +kernel), by decide +kernel, by decide +kernel, rfl, h1, by decide +kernel, by decide +kernel, hx.1, rfl, rfl,
        by decide +kernel, noToken (by decide +kernel), h3⟩

def ftF : VForm := ⟨⟨false, true, 2⟩, .v 5, .v 0, .v 0, .always, 0, false, 0, 0⟩
def withTok (st : TStat) (s : State) : State := { s with mx := { s.mx with tokens := [⟨0, 16, 1, st, 9, 0x8000, 0, 0, 0⟩] } }
/-- F5 holds the token of an operation of the given status; F5 is 0. -/
def futS (i : Instr) (st : TStat) : State := withTok st (State.grp (stand i) (fun g => { g with fregs := [(5, 1)] }))

abbrev Fut (s : State) (k : SlotCtx) (f : VForm) (l0 : Nat) : Prop :=
  isSplit k.u = true ∧ k.lanes.head? = some l0 ∧ ((∃ i, f.a = .v i) ∨ ∀ l ∈ k.lanes, k.rd s f.b l = k.rd s f.b l0) ∧ tokCluster (namedToken f k s l0) ≤ 71

theorem witness_FutureInstructions :
    (∃ s k f l0, Fut s k f l0 ∧ AtSlot s (.ftest f) k) ∧
    (∃ s k f l0, Fut s k f l0 ∧ AtSlot s (.fwait f) k ∧ tokenStatus s k.ctx (namedToken f k s l0) = 0) ∧
    (∃ s k f l0, Fut s k f l0 ∧ AtSlot s (.fwait f) k ∧ tokenStatus s k.ctx (namedToken f k s l0) = 2) ∧
    (∃ s k f l0, Fut s k f l0 ∧ AtSlot s (.fwait f) k ∧ tokenStatus s k.ctx (namedToken f k s l0) = 1) ∧
    (∃ s k f l0, Fut s k f l0 ∧ AtSlot s (.fwait f) k ∧ tokenStatus s k.ctx (namedToken f k s l0) = 4) ∧
    (∃ s k f l0 x, Fut s k f l0 ∧ AtSlot s (.fwait f) k ∧ s.token? k.ctx (tokCluster (namedToken f k s l0)) (tokSerial (namedToken f k s l0)) = some x ∧
      namedToken f k s l0 ≠ 0 ∧ x.st = .faulted) ∧
    (∃ s k f l0, Fut s k f l0 ∧ AtSlot s (.fcancel f) k ∧ tokenStatus s k.ctx (namedToken f k s l0) = 1) ∧
    ∃ s k f l0, Fut s k f l0 ∧ AtSlot s (.fcancel f) k ∧ tokenStatus s k.ctx (namedToken f k s l0) ≠ 1 :=
  ⟨⟨futS (.ftest ftF) .done, _, ftF, 0, ⟨by decide +kernel, by decide +kernel, .inl ⟨_, rfl⟩, by decide +kernel⟩, atSlot (by decide +kernel)⟩,
   ⟨stand (.fwait ftF), _, ftF, 0, ⟨by decide +kernel, by decide +kernel, .inl ⟨_, rfl⟩, by decide +kernel⟩, atSlot (by decide +kernel), by decide +kernel⟩,
   ⟨futS (.fwait ftF) .done, _, ftF, 0, ⟨by decide +kernel, by decide +kernel, .inl ⟨_, rfl⟩, by decide +kernel⟩, atSlot (by decide +kernel), by decide +kernel⟩,
   ⟨futS (.fwait ftF) .pending, _, ftF, 0, ⟨by decide +kernel, by decide +kernel, .inl ⟨_, rfl⟩, by decide +kernel⟩, atSlot (by decide +kernel), by decide +kernel⟩,
   ⟨futS (.fwait ftF) .cancelled, _, ftF, 0, ⟨by decide +kernel, by decide +kernel, .inl ⟨_, rfl⟩, by decide +kernel⟩, atSlot (by decide +kernel), by decide +kernel⟩,
   ⟨futS (.fwait ftF) .faulted, _, ftF, 0, ⟨0, 16, 1, .faulted, 9, 0x8000, 0, 0, 0⟩, ⟨by decide +kernel, by decide +kernel, .inl ⟨_, rfl⟩, by decide +kernel⟩,
     atSlot (by decide +kernel), by decide +kernel, by decide +kernel, rfl⟩,
   ⟨futS (.fcancel ftF) .pending, _, ftF, 0, ⟨by decide +kernel, by decide +kernel, .inl ⟨_, rfl⟩, by decide +kernel⟩, atSlot (by decide +kernel), by decide +kernel⟩,
   ⟨futS (.fcancel ftF) .faulted, _, ftF, 0, ⟨by decide +kernel, by decide +kernel, .inl ⟨_, rfl⟩, by decide +kernel⟩, atSlot (by decide +kernel), by decide +kernel⟩⟩

def awVF : VForm := ⟨⟨false, false, 1⟩, .scalar 6, .scalar 7, .v 0, .always, 0, false, 0, 0⟩
/-- The last arrival word of a scratchpad of 4 KiB; generation 7. -/
def arrS (i : Instr) (x : Nat) : State := setSs 6 [0xFF8, x] (setScr 0xFF8 8 7 (stand i))
abbrev Arr (s : State) (k : SlotCtx) (f : VForm) (off x : Nat) : Prop :=
  isSplit k.u = true ∧ k.ex ≠ 0 ∧ (∀ l ∈ k.lanes, (k.rd s f.a l).toNat = off ∧ (k.rd s f.b l).toNat = x) ∧ off % 8 = 0 ∧
    off + 8 ≤ 256 * (s.getBlock k.g.block).hdr.scratch
def rdvVF : VForm := { v0f with a := .const 23 }
def forkSet : ForkSet := ⟨9, 1, 0, true, false, false, []⟩
def rdvS : State := let s := stand (.rdv rdvVF); { s with mx := { s.mx with forks := [forkSet] } }

theorem witness_ArrivalAndRendezvous :
    (∃ s k f off x, Arr s k f off x ∧ AtSlot s (.awinit f) k ∧ x < 2 ^ 24) ∧ (∃ s k f off x, Arr s k f off x ∧ AtSlot s (.awadd f) k ∧ x < 2 ^ 24) ∧
    (∃ s k f off x, Arr s k f off x ∧ AtSlot s (.await f) k ∧ k.park = none ∧ (s.getBlock k.g.block).nat off 8 % 2 ^ 16 ≠ x % 2 ^ 16) ∧
    (∃ s k f off x, Arr s k f off x ∧ AtSlot s (.await f) k ∧ k.park = none ∧ (s.getBlock k.g.block).nat off 8 % 2 ^ 16 = x % 2 ^ 16) ∧
    (∃ s k f n, AtSlot s (.rdv f) k ∧ isSplit k.u = true ∧ k.park = none ∧ k.ex ≠ 0 ∧ (∀ l ∈ k.lanes, (k.rd s f.a l).toNat = n) ∧ n ≤ 7 ∧ s.forkOf k.gid = none) ∧
    ∃ s k f n fs, AtSlot s (.rdv f) k ∧ isSplit k.u = true ∧ k.park = none ∧ k.ex ≠ 0 ∧ (∀ l ∈ k.lanes, (k.rd s f.a l).toNat = n) ∧ n ≤ 7 ∧
      s.forkOf k.gid = some fs ∧ (∀ x ∈ s.mx.forks, x.id = fs.id → x = fs) ∧ released k s 4 = true ∧ k.g.liveLanes ≠ 0 ∧ (∀ l ∈ lanesOf k.g.liveLanes, l ∈ k.lanes) ∧
      (fs.seq = true → (fs.rdvs.get n default).units.getD 0 false = true) ∧ (fs.eng = true → (fs.rdvs.get n default).units.getD 1 false = true) ∧
      (fs.rdvs.get n default).ph < 65535 :=
  ⟨⟨arrS (.awinit awVF) 0xFFFFFF, _, awVF, 0xFF8, 0xFFFFFF, by decide +kernel, atSlot (by decide +kernel), by decide⟩,
   ⟨arrS (.awadd awVF) 0xFFFFFF, _, awVF, 0xFF8, 0xFFFFFF, by decide +kernel, atSlot (by decide +kernel), by decide⟩,
   ⟨arrS (.await awVF) 8, _, awVF, 0xFF8, 8, by decide +kernel, atSlot (by decide +kernel), by decide +kernel, by decide +kernel⟩,
   ⟨arrS (.await awVF) 0x10007, _, awVF, 0xFF8, 0x10007, by decide +kernel, atSlot (by decide +kernel), by decide +kernel, by decide +kernel⟩,
   ⟨stand (.rdv rdvVF), _, rdvVF, 7, atSlot (by decide +kernel), by decide +kernel, by decide +kernel, by decide +kernel, by decide +kernel, by decide, rfl⟩,
   ⟨rdvS, _, rdvVF, 7, forkSet, atSlot (by decide +kernel), by decide +kernel⟩⟩

/-- An operation with one piece of 64 bytes from 0x8000 to 0x9000. -/
def opOf (ssp dsp : Bool) (st : Progress) (data : List (Nat × Byte)) : EOp :=
  { (default : EOp) with id := 9, cluster := 0, ctx := 16, serial := 1, kind := .copy, block := 2, ssp := ssp, dsp := dsp,
                         pieces := [⟨[⟨if ssp then 0x100 else 0x8000, if dsp then 0x200 else 0x9000, 64⟩], data, st⟩], started := true }
def opS (o : EOp) : State := let s := dirtyS (stand (.mov vf)); { s with mx := { s.mx with ops := [o] } }
def opR : OpRef := ⟨0, 16, 1⟩
def piece (src dst : Nat) (st : Progress) (data : List (Nat × Byte)) : Piece := ⟨[⟨src, dst, 64⟩], data, st⟩
def isOk (x : State × Tr) : Bool := isOkXlate x.2
theorem trOf {x : State × Tr} (h : isOk x = true) : ∃ s pa ip, x = (s, .ok pa ip) := by
  obtain ⟨s, t⟩ := x
  obtain ⟨pa, ip, h⟩ := xlateOf (t := t) h
  exact ⟨s, pa, ip, by rw [h]⟩

theorem witness_EngineEvents :
    (∃ (s : State) (r : OpRef) (o : EOp) (n : Nat) (pc : Piece) (p : Part), s.opOf r = some o ∧ mayStart s o = true ∧ o.stopped = false ∧ o.kind = .copy ∧ o.pieces[n]? = some pc ∧ pc.st = .todo ∧
      nextPart pc.parts pc.data.length = some p ∧ o.ssp = true) ∧
    (∃ (s s1 : State) (r : OpRef) (o : EOp) (n : Nat) (pc : Piece) (p : Part) (pa ip : Nat), s.opOf r = some o ∧ mayStart s o = true ∧ o.stopped = false ∧ o.kind = .copy ∧ o.pieces[n]? = some pc ∧ pc.st = .todo ∧
      nextPart pc.parts pc.data.length = some p ∧ o.ssp = false ∧ opXlate (s.updOp o.id (fun o => { o with started := true })) o p.src .read = (s1, .ok pa ip) ∧
      s1.vis.clearBefore o.id (pa / 64) = true) ∧
    (∃ (s s1 : State) (r : OpRef) (o : EOp) (n : Nat) (pc : Piece) (pa ip : Nat), s.opOf r = some o ∧ o.stopped = false ∧ o.kind = .copy ∧ o.rmt = none ∧ o.dsp = false ∧ o.pieces[n]? = some pc ∧ pc.st = .read ∧
      opXlate s o ((pc.parts.headD ⟨0, 0, 0⟩).dst / 64 * 64) .write = (s1, .ok pa ip) ∧ s1.vis.clearBefore o.id (pa / 64) = true ∧
      (markDirty { s1 with mem := memWrite s1.mem (pc.data.map (fun e => (pa + (e.1 - (pc.parts.headD ⟨0, 0, 0⟩).dst / 64 * 64), e.2))) } o.ctx ip).2 = false) ∧
    (∃ (s : State) (r : OpRef) (o : EOp) (n : Nat) (pc : Piece) (b : Block), s.opOf r = some o ∧ o.stopped = false ∧ o.dsp = true ∧ o.aw = none ∧ o.pieces[n]? = some pc ∧ pc.st = .read ∧ s.block? o.block = some b) ∧
    (∃ (s : State) (r : OpRef) (o : EOp), s.opOf r = some o ∧ o.outstanding = 0 ∧ (∀ p ∈ o.pieces, p.st = .done) ∧ o.kind = .copy) ∧ ∃ (s : State) (r : OpRef) (o : EOp), s.opOf r = some o := by
  refine ⟨⟨opS (opOf true false .todo []), opR, opOf true false .todo [], 0, piece 0x100 0x9000 .todo [], ⟨0x100, 0x9000, 64⟩, rfl, by decide +kernel, rfl, rfl, rfl, rfl, rfl, rfl⟩,
    ?_, ?_, ⟨opS (opOf false true .read [(0x200, 1)]), opR, opOf false true .read [(0x200, 1)], 0, piece 0x8000 0x200 .read [(0x200, 1)], _, rfl, rfl, rfl, rfl, rfl, rfl, rfl⟩,
    ⟨opS (opOf true true .done []), opR, opOf true true .done [], rfl, rfl, by decide +kernel, rfl⟩, ⟨opS (opOf true true .done []), opR, _, rfl⟩⟩
  · let o := opOf false false .todo []
    let s := opS o
    let x := opXlate (s.updOp o.id (fun o => { o with started := true })) o 0x8000 .read
    have hc : x.1.vis.owned = [] := by decide +kernel
    obtain ⟨s1, pa, ip, h⟩ := trOf (x := x) (by decide +kernel)
    rw [h] at hc
    exact ⟨s, s1, opR, o, 0, piece 0x8000 0x9000 .todo [], ⟨0x8000, 0x9000, 64⟩, pa, ip, rfl, by decide +kernel, rfl, rfl, rfl, rfl, rfl, rfl, h,
      by simp only [Vis.clearBefore, show s1.vis.owned = [] from hc, List.all_nil]⟩
  · let o := opOf false false .read [(0x9000, 1)]
    let s := opS o
    let x := opXlate s o 0x9000 .write
    have hc : x.1.vis.owned = [] ∧ (match x.2 with | .ok pa ip => (markDirty { x.1 with mem := memWrite x.1.mem [(pa, 1)] } 16 ip).2 | _ => true) = false := by decide +kernel
    obtain ⟨s1, pa, ip, h⟩ := trOf (x := x) (by decide +kernel)
    rw [h] at hc
    exact ⟨s, s1, opR, o, 0, piece 0x8000 0x9000 .read [(0x9000, 1)], pa, ip, rfl, rfl, rfl, rfl, rfl, rfl, rfl, h,
      by simp only [Vis.clearBefore, show s1.vis.owned = [] from hc.1, List.all_nil], hc.2⟩

/-! ## Control flow -/

theorem inr1 {α β : Type} {x : State × (α ⊕ β)} (h : isRight x = true) : ∃ b, x = (x.1, .inr b) := by
  obtain ⟨s, b, h⟩ := rightOf h
  exact ⟨b, by rw [h]⟩
theorem ok1 {F T : Type} {x : State × Option (List F × T)} (h : allOk x = true) : ∃ t, x = (x.1, some ([], t)) := by
  obtain ⟨s, t, h⟩ := okOf h
  exact ⟨t, by rw [h]⟩
theorem tr1 {x : State × Tr} (h : isOk x = true) : ∃ pa ip, x = (x.1, .ok pa ip) := by
  obtain ⟨s, pa, ip, h⟩ := trOf h
  exact ⟨pa, ip, by rw [h]⟩

def jmpF : BForm := { bf with indir := .v 3 }

theorem witness_TransfersAreRecorded :
    (∃ s k f, AtSlot s (.br .divergent f) k) ∧ (∃ s k f, AtSlot s (.bra f) k) ∧ (∃ s k f, AtSlot s (.call f) k) ∧ (∃ s k f, AtSlot s (.ret f) k) ∧
    (∃ s k f, AtSlot s (.exit f) k) ∧ (∃ s k f, AtSlot s (.jmpi f) k) ∧ (∃ s k f, AtSlot s (.calli f) k) ∧ ∃ s k f, AtSlot s (.plbr f) k :=
  ⟨⟨stand (.br .divergent bf), _, bf, atSlot (by decide +kernel)⟩, ⟨stand (.bra bf), _, bf, atSlot (by decide +kernel)⟩, ⟨stand (.call bf), _, bf, atSlot (by decide +kernel)⟩,
   ⟨stand (.ret bf), _, bf, atSlot (by decide +kernel)⟩, ⟨stand (.exit v0f), _, v0f, atSlot (by decide +kernel)⟩, ⟨stand (.jmpi jmpF), _, jmpF, atSlot (by decide +kernel)⟩,
   ⟨stand (.calli jmpF), _, jmpF, atSlot (by decide +kernel)⟩, ⟨stand (.plbr jmpF), _, jmpF, atSlot (by decide +kernel)⟩⟩

/-- A split at the end of a clause whose transfer is `i`, taken by the lanes of `m`. -/
def endC (i : Instr) (m : Mask) : Clause := { fetchClause 0 with xfer := some i, xT := m }
def endS (i : Instr) (m : Mask) (dep : Nat) : State :=
  State.grp (stand i) (fun g => { g with depth := (List.range 16).foldl (fun x l => x.set 0 l dep) g.depth, splits := [some { (default : Split) with mask := 0xFFFF, st := .mid, clause := some (endC i m) }, none, none, none] })
def endG (i : Instr) (m : Mask) (dep : Nat) : Group := (endS i m dep).getGroup 1
def endSp (i : Instr) (m : Mask) : Split := { (default : Split) with mask := 0xFFFF, st := .mid, clause := some (endC i m) }

theorem witness_ClauseEnds :
    (∀ x ∈ [(BrKind.divergent, (0 : Mask)), (.divergent, 0xFFFF), (.uniform, 0xFF), (.divergent, 0xFF)], ∃ (s : State) (g : Group) (sp : Split) (c : Clause) (f : BForm),
      s.group? 1 = some g ∧ g.split? 0 = some sp ∧ 0 < g.splits.length ∧ c.xfer = some (.br x.1 f) ∧ c.xT = x.2 ∧ c.xT &&& ~~~sp.mask = 0 ∧ sp.mask ≠ 0 ∧
      g.split? 1 = none ∧ (∀ e' < 1, g.split? e' ≠ none)) ∧
    (∃ (s s1 : State) (gid entry : Nat) (g : Group) (sp : Split) (c : Clause) (f : BForm) (es : List QEntry), s.group? gid = some g ∧ g.split? entry = some sp ∧
      entry < g.splits.length ∧ c.xfer = some (.call f) ∧ c.xT = sp.mask ∧ sp.mask ≠ 0 ∧
      (∀ l ∈ lanesOf sp.mask, g.depth.get l 0 < 1023 ∧ g.bb + (g.depth.get l 0 + 1) * 4 * g.hdr.width + g.burst ≤ g.spillLim) ∧
      callEntries g entry (c.off + 8 * (c.count + 2)) (lanesOf sp.mask) s = (s1, .inr es) ∧ s1.group? gid = some g) ∧
    (∃ (s s1 s2 : State) (gid entry : Nat) (g : Group) (sp : Split) (c : Clause) (d : Nat) (ts : List (Nat × Nat)), s.group? gid = some g ∧ g.split? entry = some sp ∧
      entry < g.splits.length ∧ (∃ x, c.xfer = some (.ret x)) ∧ c.xT = sp.mask ∧ sp.mask ≠ 0 ∧
      readLevels g entry (sp.withPend c) (lanesOf sp.mask) s = (s1, some ([], ts)) ∧ ts = (lanesOf sp.mask).map (fun l => (l, d)) ∧
      checkTargets g entry (sp.withPend c) false ts s1 = (s2, some ([], ts)) ∧ s2.group? gid = some g) ∧
    ∃ (s : State) (gid entry : Nat) (g : Group) (sp : Split) (c : Clause) (f : VForm), s.group? gid = some g ∧ g.split? entry = some sp ∧ c.xfer = some (.exit f) ∧ c.xT ≠ 0 := by
  refine ⟨fun x hx => ⟨endS (.br x.1 bf) x.2 0, endG (.br x.1 bf) x.2 0, endSp (.br x.1 bf) x.2, endC (.br x.1 bf) x.2, bf, ?_⟩, ?_, ?_,
    ⟨endS (.exit v0f) 1 0, 1, 0, endG (.exit v0f) 1 0, endSp (.exit v0f) 1, endC (.exit v0f) 1, v0f, by decide +kernel, by decide +kernel, rfl, by decide⟩⟩
  · revert x
    decide +kernel
  · let g := endG (.call bf) 0xFFFF 0
    let x := callEntries g 0 16 (lanesOf 0xFFFF) (endS (.call bf) 0xFFFF 0)
    obtain ⟨es, h⟩ := inr1 (x := x) (by decide +kernel)
    exact ⟨endS (.call bf) 0xFFFF 0, x.1, 1, 0, g, endSp (.call bf) 0xFFFF, endC (.call bf) 0xFFFF, bf, es, by decide +kernel, by decide +kernel, by decide +kernel, rfl, rfl, by decide,
      by decide +kernel, h, by decide +kernel⟩
  · let i : Instr := .ret bf
    let g := endG i 0xFFFF 1
    let sp := (endSp i 0xFFFF).withPend (endC i 0xFFFF)
    let x := readLevels g 0 sp (lanesOf 0xFFFF) (endS i 0xFFFF 1)
    let ts := (lanesOf 0xFFFF).map (fun l => (l, 0))
    have hx : x.2 = some ([], ts) := by decide +kernel
    have hy : (checkTargets g 0 sp false ts x.1).2 = some ([], ts) := by decide +kernel
    have hg : (checkTargets g 0 sp false ts x.1).1.group? 1 = some g := by decide +kernel
    exact ⟨endS i 0xFFFF 1, x.1, (checkTargets g 0 sp false ts x.1).1, 1, 0, g, endSp i 0xFFFF, endC i 0xFFFF, 0, ts, by decide +kernel, by decide +kernel, by decide +kernel,
      ⟨_, rfl⟩, rfl, by decide, Prod.ext rfl hx, rfl, Prod.ext rfl hy, hg⟩

def ksetF : BForm := { bf with pred := ⟨false, 2⟩, kidx := 7 }
def plsetS (x : Word) : State := setV 2 (fun l => if l = 5 then x else 0) (stand (.plset vf))
def widF (n : BitVec 7) : VForm := { vf with a := .const n }

theorem witness_ControlSlots :
    (∃ s k f, AtSlot s (.join f) k) ∧ (∃ s k f, AtSlot s (.joinw f) k) ∧ (∃ s k f, AtSlot s (.nop f) k) ∧ (∃ s k f, AtSlot s (.kset f) k ∧ isSplit k.u = true) ∧
    (∃ s k f, AtSlot s (.plset f) k ∧ isSplit k.u = true ∧ ∀ l ∈ k.lanes, (k.rd s f.a l).toNat ≤ 3 ∧ k.g.hdr.planes.getLsbD (k.rd s f.a l).toNat = true) ∧
    (∃ s k f, AtSlot s (.plset f) k ∧ isSplit k.u = true ∧ ∃ l ∈ k.lanes, 3 < (k.rd s f.a l).toNat) ∧
    (∃ s k f, AtSlot s (.plset f) k ∧ isSplit k.u = true ∧ ∃ l ∈ k.lanes, (k.rd s f.a l).toNat = 3 ∧ k.g.hdr.planes.getLsbD 3 = false) ∧
    (∃ s k f, AtSlot s (.yield f) k ∧ isSplit k.u = true ∧ k.ex ≠ 0) ∧
    (∃ s k f x, AtSlot s (.wdog f) k ∧ isSplit k.u = true ∧ k.ex ≠ 0 ∧ ∀ l ∈ k.lanes, k.rd s f.a l = x) ∧
    (∃ s k f, AtSlot s (.wid f) k ∧ isSplit k.u = true ∧ f.dst.kind = false ∧ f.dst.idx.toNat + 2 ≤ k.g.vregs ∧ ∀ l ∈ k.lanes, (k.rd s f.a l).toNat = 6) ∧
    ∃ s k f, AtSlot s (.wid f) k ∧ isSplit k.u = true ∧ ∀ l ∈ k.lanes, (k.rd s f.a l).toNat ≠ 6 :=
  ⟨⟨stand (.join bf), _, bf, atSlot (by decide +kernel)⟩, ⟨stand (.joinw bf), _, bf, atSlot (by decide +kernel)⟩, ⟨stand (.nop v0f), _, v0f, atSlot (by decide +kernel)⟩,
   ⟨stand (.kset ksetF), _, ksetF, atSlot (by decide +kernel), by decide +kernel⟩, ⟨plsetS 0, _, vf, atSlot (by decide +kernel), by decide +kernel⟩,
   ⟨plsetS 4, _, vf, atSlot (by decide +kernel), by decide +kernel⟩, ⟨plsetS 3, _, vf, atSlot (by decide +kernel), by decide +kernel⟩,
   ⟨stand (.yield v0f), _, v0f, atSlot (by decide +kernel), by decide +kernel⟩, ⟨stand (.wdog (widF 17)), _, widF 17, 1, atSlot (by decide +kernel), by decide +kernel⟩,
   ⟨stand (.wid (widF 22)), _, widF 22, atSlot (by decide +kernel), by decide +kernel⟩, ⟨stand (.wid (widF 21)), _, widF 21, atSlot (by decide +kernel), by decide +kernel⟩⟩

/-- A split that stands at the header of its clause. -/
def hdrSp : Split := { (default : Split) with mask := 0xFFFF, st := .ready }
def hdrS : State := State.grp (stand (.mov vf)) (fun g => { g with splits := [some hdrSp, none, none, none], held := 2048, wdog := 0x01000000 })
/-- With the registers of a new context (R84). -/
def timeS : State := hdrS.updCtx 16 (fun c => { c with wdog := 0x01000000, fair := 2048 })

theorem witness_ClauseIssueAndTimers :
    (∃ (s s1 s2 : State) (gid e : Nat) (g : Group) (sp : Split) (h w : DWord), s.cur = some (.split gid e) ∧ s.group? gid = some g ∧ g.split? e = some sp ∧ e < g.splits.length ∧
      sp.clause = none ∧ 0 ≤ sp.offset ∧ sp.offset % 8 = 0 ∧ sp.offset < (g.hdr.codeSize : Int) ∧ sp.handler = none ∧ (∀ l ∈ lanesOf sp.mask, g.plane.get l 0 = 0) ∧ sp.mask ≠ 0 ∧
      sp.vect = none ∧ sp.joined = false ∧ fetchCode s g e 0 sp.offset.toNat = (s1, .inr h) ∧ s1.group? gid = some g ∧ hdrChecks g sp.offset.toNat h = none ∧ hdrClass h ≠ .system ∧
      fetchCode s1 g e 0 (sp.offset.toNat + 8) = (s2, .inr w) ∧ s2.group? gid = some g ∧ joinOf w (hdrClass h) = none ∧ hdrWait h = 0 ∧ loadsOk g sp.mask h = true) ∧
    (∃ (s : State) (gid n : Nat) (g : Group), s.group? gid = some g ∧ fairLimit s g.ctx = some n ∧ n ≤ g.held) ∧
    (∃ (s : State) (gid : Nat) (g : Group), s.group? gid = some g ∧ g.resident = true ∧ g.halted = false ∧ g.live ≠ [] ∧ (s.getCtx g.ctx).wdog ≠ 0 ∧ (s.getCtx g.ctx).wdog.toNat ≤ g.wdog) ∧
    ∃ (s s1 : State) (gid e : Nat) (g : Group) (sp : Split) (w : DWord), s.group? gid = some g ∧ g.live = [(e, sp)] ∧ g.splits.length = 4 ∧ sp.clause = none ∧ sp.handler = none ∧
      (∀ l ∈ lanesOf sp.mask, g.plane.get l 0 = 0) ∧ sp.mask ≠ 0 ∧ (∀ x ∈ s.groups, x.gid = gid → x = g) ∧ fetchCode s g e 0 sp.offset.toNat = (s1, .inr w) := by
  let g := hdrS.getGroup 1
  let x := fetchCode hdrS g 0 0 0
  let y := fetchCode x.1 g 0 0 8
  let h : DWord := 0xF0080000FF000000
  let w : DWord := encode (.mov vf)
  have hx : x.2 = .inr h := by decide +kernel
  have hy : y.2 = .inr w := by decide +kernel
  exact ⟨⟨hdrS, x.1, y.1, 1, 0, g, hdrSp, h, w, by decide +kernel, by decide +kernel, by decide +kernel, by decide +kernel, rfl, by decide, by decide, by decide +kernel, rfl,
      by decide +kernel, by decide, rfl, rfl, Prod.ext rfl hx, by decide +kernel, by decide +kernel, by decide +kernel, Prod.ext rfl hy, by decide +kernel, by decide +kernel,
      by decide +kernel, by decide +kernel⟩,
    ⟨timeS, 1, 2048, timeS.getGroup 1, by decide +kernel, by decide +kernel, by decide +kernel⟩,
    ⟨timeS, 1, timeS.getGroup 1, by decide +kernel, by decide +kernel, by decide +kernel, by decide +kernel, by decide +kernel, by decide +kernel⟩,
    ⟨hdrS, x.1, 1, 0, g, hdrSp, h, by decide +kernel, by decide +kernel, by decide +kernel, rfl, rfl, by decide +kernel, by decide, by decide +kernel, Prod.ext rfl hx⟩⟩


/-! ## Barriers, feeds, seedbeds, launches -/

/-- Barrier n of the block. -/
def setBar (n : Nat) (b : Barrier) (s : State) : State := s.updBlock 2 (fun x => { x with bars := [(n, b)] })
def allMarks : SMap Nat := (List.range 16).map (fun l => (l, 1))
def barF : VForm := { v0f with a := .const 31, b := .scalar 3 }
def barWF : VForm := { v0f with a := .const 31 }
def barS (i : Instr) : State := setS 3 32 (stand i)

theorem witness_Barriers :
    (∃ (s : State) (blk n e : Nat) (b : Block), s.block? blk = some b ∧ (b.bars.get n default).expected = some e ∧
      ((s.groups.filter (fun g => g.block == blk)).filter (fun g => g.liveLanes != 0)).length = 1 ∧ e = 0 ∧
      (∀ g ∈ s.groups, (lanesOf g.liveLanes).all (fun l => (b.bars.get n default).marks.get (g.gidx * 128 + l) 0 == ((b.bars.get n default).ph + 1) % 65536) = false)) ∧
    (∃ (s : State) (blk n e : Nat) (b : Block), s.block? blk = some b ∧ (b.bars.get n default).expected = some e ∧ e = 1 ∧ (s.groups.filter (fun g => g.block == blk)).length = 1 ∧
      (∀ g ∈ s.groups, g.liveLanes ≠ 0 ∧ (lanesOf g.liveLanes).all (fun l => (b.bars.get n default).marks.get (g.gidx * 128 + l) 0 == ((b.bars.get n default).ph + 1) % 65536) = true)) ∧
    (∃ (s : State) (k : SlotCtx) (f : VForm) (b n : Nat), isSplit k.u = true ∧ k.ex ≠ 0 ∧ k.park = none ∧ (∀ l ∈ k.lanes, (k.rd s f.a l).toNat = b) ∧ b = 15 ∧ AtSlot s (.barArrive f) k ∧
      (∀ l ∈ k.lanes, (k.rd s f.b l).toNat = n) ∧ n = 32 ∧ released k s 1 = true) ∧
    (∃ (s : State) (k : SlotCtx) (f : VForm) (b : Nat), isSplit k.u = true ∧ k.ex ≠ 0 ∧ k.park = none ∧ (∀ l ∈ k.lanes, (k.rd s f.a l).toNat = b) ∧ b = 15 ∧ AtSlot s (.barWait f) k ∧
      (∀ l ∈ k.lanes, barPending k.g ((s.getBlock k.g.block).bars.get b default) l = false) ∧ k.g.loadsOf k.sp.mask = []) ∧
    (∃ (s : State) (k : SlotCtx) (f : VForm) (b : Nat), isSplit k.u = true ∧ k.ex ≠ 0 ∧ k.park = none ∧ (∀ l ∈ k.lanes, (k.rd s f.a l).toNat = b) ∧ b ≤ 15 ∧ AtSlot s (.barWait f) k ∧
      (∃ l ∈ k.lanes, l ∈ lanesOf k.g.liveLanes ∧ barPending k.g ((s.getBlock k.g.block).bars.get b default) l = true)) ∧
    ∃ (s : State) (k : SlotCtx) (f : VForm) (b n : Nat), isSplit k.u = true ∧ k.ex ≠ 0 ∧ k.park = none ∧ (∀ l ∈ k.lanes, (k.rd s f.a l).toNat = b) ∧ b ≤ 15 ∧ AtSlot s (.barSync f) k ∧
      (∀ l ∈ k.lanes, (k.rd s f.b l).toNat = n) ∧ n ≤ 32 ∧ released k s 1 = true :=
  ⟨⟨setBar 15 ⟨0, some 0, [(0, 1)]⟩ (stand (.mov vf)), 2, 15, 0, ((setBar 15 ⟨0, some 0, [(0, 1)]⟩ (stand (.mov vf))).block? 2).getD default, by decide +kernel⟩,
   ⟨setBar 15 ⟨0, some 1, allMarks⟩ (stand (.mov vf)), 2, 15, 1, ((setBar 15 ⟨0, some 1, allMarks⟩ (stand (.mov vf))).block? 2).getD default, by decide +kernel⟩,
   ⟨barS (.barArrive barF), _, barF, 15, 32, by decide +kernel, by decide +kernel, by decide +kernel, by decide +kernel, rfl, atSlot (by decide +kernel), by decide +kernel⟩,
   ⟨stand (.barWait barWF), _, barWF, 15, by decide +kernel, by decide +kernel, by decide +kernel, by decide +kernel, rfl, atSlot (by decide +kernel), by decide +kernel⟩,
   ⟨setBar 15 ⟨0, some 2, allMarks⟩ (stand (.barWait barWF)), _, barWF, 15, by decide +kernel, by decide +kernel, by decide +kernel, by decide +kernel, by decide,
     atSlot (by decide +kernel), by decide +kernel⟩,
   ⟨barS (.barSync barF), _, barF, 15, 32, by decide +kernel, by decide +kernel, by decide +kernel, by decide +kernel, by decide, atSlot (by decide +kernel), by decide +kernel⟩⟩

def pushF : VForm := { vf with dst := ⟨false, true, 2⟩, a := .scalar 112, b := .scalar 3 }
def popF : VForm := { v0f with dst := ⟨false, true, 111⟩ }
/-- Core `core` has a feed for the context. -/
def feedS (cap : Nat) (recs : List (List Word)) (x : Word) (i : Instr) : State := let s := setS 3 x (stand i); { s with feeds := [⟨16, if x = 287 then 287 else 0, cap, recs⟩] }
def sleepF (n : BitVec 7) : VForm := { vf with a := .const n }
def sleepS : State :=
  State.grp (stand (.sleep (sleepF 17))) (fun g => { g with splits := g.splits.map (fun x => x.map (fun sp => { sp with st := .parked ⟨.sleep 0, 0xFFFF, .sleep (sleepF 17), 0, some 1, []⟩ })) })
def sleepT : State :=
  State.grp (stand (.sleep (sleepF 17))) (fun g => { g with splits := g.splits.map (fun x => x.map (fun sp => { sp with st := .parked ⟨.sleep 0, 0xFFFF, .sleep (sleepF 17), 0, none, []⟩ })) })

abbrev Pusher (s : State) (k : SlotCtx) (f : VForm) (a : BitVec 7) (x : Word) : Prop :=
  AtSlot s (.feedpush f) k ∧ isSplit k.u = true ∧ k.ex ≠ 0 ∧ f.a = .scalar a ∧ a.toNat ≤ 112 ∧ (∀ l ∈ k.lanes, k.rd s f.b l = x) ∧ (x.toNat < 288 ∨ x = 0xFFFFFFFF)
abbrev Popper (s : State) (k : SlotCtx) (m : PopKind) (f : VForm) : Prop :=
  AtSlot s (.feedpop m f) k ∧ isSplit k.u = true ∧ k.ex ≠ 0 ∧ k.park = none ∧ f.dst.sup = false ∧ f.dst.idx.toNat ≤ 111

theorem witness_FeedsAndSleep :
    (∃ s k f a x, Pusher s k f a x ∧ s.feed? k.ctx k.core = none ∧ x = 0xFFFFFFFF) ∧
    (∃ s k f a x q, Pusher s k f a x ∧ x.toNat = 287 ∧ s.feed? k.ctx 287 = some q ∧ q.cap ≤ q.recs.length) ∧
    (∃ s k f a x q, Pusher s k f a x ∧ x.toNat = 0 ∧ s.feed? k.ctx 0 = some q ∧ q.recs.length < q.cap ∧ poppers s k.ctx 0 = []) ∧
    (∃ s k m f, Popper s k m f ∧ s.feed? k.ctx k.core = none) ∧ (∃ s k m f q r rs, Popper s k m f ∧ s.feed? k.ctx k.core = some q ∧ q.recs = r :: rs) ∧
    (∃ s k f q, Popper s k .nonBlocking f ∧ s.feed? k.ctx k.core = some q ∧ q.recs = []) ∧ (∃ s k f q, Popper s k .blocking f ∧ s.feed? k.ctx k.core = some q ∧ q.recs = []) ∧
    (∃ s k f d, AtSlot s (.sleep f) k ∧ isSplit k.u = true ∧ k.ex ≠ 0 ∧ k.park = none ∧ (∀ l ∈ k.lanes, (k.rd s f.a l).toNat ≤ d) ∧ (∃ l ∈ k.lanes, (k.rd s f.a l).toNat = d) ∧ d = 0) ∧
    (∃ s k f d, AtSlot s (.sleep f) k ∧ isSplit k.u = true ∧ k.ex ≠ 0 ∧ k.park = none ∧ (∀ l ∈ k.lanes, (k.rd s f.a l).toNat ≤ d) ∧ (∃ l ∈ k.lanes, (k.rd s f.a l).toNat = d) ∧ d = 1) ∧
    (∃ s k f p r, AtSlot s (.sleep f) k ∧ k.park = some p ∧ p.wake = some r) ∧
    ∃ (s : State) (r : SplitRef) (g : Group) (sp : Split) (p : Park) (till : Nat), s.group? r.gid = some g ∧ g.split? r.entry = some sp ∧ sp.st = .parked p ∧ p.kind = .sleep till ∧
      p.wake = none ∧ till ≤ s.now :=
  ⟨⟨setS 3 0xFFFFFFFF (stand (.feedpush pushF)), _, pushF, 112, 0xFFFFFFFF, ⟨atSlot (by decide +kernel), by decide +kernel⟩, by decide +kernel, rfl⟩,
   ⟨feedS 16 (List.replicate 16 []) 287 (.feedpush pushF), _, pushF, 112, 287, ⟨16, 287, 16, List.replicate 16 []⟩, ⟨atSlot (by decide +kernel), by decide +kernel⟩, rfl, rfl, by decide⟩,
   ⟨feedS 16 (List.replicate 15 []) 0 (.feedpush pushF), _, pushF, 112, 0, ⟨16, 0, 16, List.replicate 15 []⟩, ⟨atSlot (by decide +kernel), by decide +kernel⟩, rfl, rfl, by decide,
     by decide +kernel⟩,
   ⟨stand (.feedpop .blocking popF), _, .blocking, popF, ⟨atSlot (by decide +kernel), by decide +kernel⟩, by decide +kernel⟩,
   ⟨feedS 16 [[1], [2]] 0 (.feedpop .blocking popF), _, .blocking, popF, ⟨16, 0, 16, [[1], [2]]⟩, [1], [[2]], ⟨atSlot (by decide +kernel), by decide +kernel⟩, rfl, rfl⟩,
   ⟨feedS 16 [] 0 (.feedpop .nonBlocking popF), _, popF, ⟨16, 0, 16, []⟩, ⟨atSlot (by decide +kernel), by decide +kernel⟩, rfl, rfl⟩,
   ⟨feedS 16 [] 0 (.feedpop .blocking popF), _, popF, ⟨16, 0, 16, []⟩, ⟨atSlot (by decide +kernel), by decide +kernel⟩, rfl, rfl⟩,
   ⟨stand (.sleep (sleepF 16)), _, sleepF 16, 0, atSlot (by decide +kernel), by decide +kernel⟩,
   ⟨stand (.sleep (sleepF 17)), _, sleepF 17, 1, atSlot (by decide +kernel), by decide +kernel⟩,
   ⟨sleepS, _, sleepF 17, ⟨.sleep 0, 0xFFFF, .sleep (sleepF 17), 0, some 1, []⟩, 1, atSlot (by decide +kernel), by decide +kernel, rfl⟩,
   ⟨sleepT, ⟨1, 0⟩, sleepT.getGroup 1, ((sleepT.getGroup 1).split? 0).getD default, ⟨.sleep 0, 0xFFFF, .sleep (sleepF 17), 0, none, []⟩, 0, by decide +kernel⟩⟩

/-- A launch header (R56): one group of 16 lanes, 64 registers, 4 KiB of scratchpad, seedbed timer t. -/
def hdrBytes (t : Nat) : List Byte :=
  bytesOfNat 8 0x2000 ++ bytesOfNat 4 0x1000 ++ bytesOfNat 4 0 ++ bytesOfNat 4 0x01000800 ++ bytesOfNat 2 16 ++ bytesOfNat 2 t ++ bytesOfNat 8 (4 + 6 * 2 ^ 36) ++
    bytesOfNat 16 (1 + 2 ^ 32 + 2 ^ 64 + 2 ^ 96) ++ bytesOfNat 64 0
/-- The header lies at 0x8000, which S2 and S3 name; lane 0 alone is in the clause, or all sixteen are. -/
def hdrAt (m : Mask) (i : Instr) : State :=
  let s := setM 0x8000 128 (natOfBytes (hdrBytes 9)) (setSs 2 [0x8000, 0] (stand i))
  State.grp s (fun g => { g with splits := g.splits.map (fun x => x.map (fun sp => { sp with mask := m, clause := sp.clause.map (fun c => { c with sub := m, subs := [m, 0, 0, 0] }) })) })
def seedK : SeedKey := ⟨0, 16, 0x2000, LaunchHdr.ofBytes (hdrBytes 9), 0x8000, [⟨0, [0, 0, 0, 0]⟩], some 0⟩
def timeOf (n : Nat) (s : State) : State := { s with now := n }
def withSeed (s : State) : State := { s with seeds := [seedK] }
def keyOf (b : List Byte) : Nat := (LaunchHdr.ofBytes b).codeBase + (LaunchHdr.ofBytes b).entry

def lnF : XForm := { xf with b := .scalar 4 }

theorem witness_SpawnAndLaunch :
    (∃ s s1 k m f l0 b, AtSlot s (.spawn m f) k ∧ k.lanes.head? = some l0 ∧ k.rd64 s f.a l0 % 128 = 0 ∧ k.rd64 s f.a l0 < 2 ^ 56 ∧
      readVirt (entered s k) k.who k.core k.ctx (k.rd64 s f.a l0) 128 .read = (s1, .inr b) ∧
      (seedHdrOk b = true ∧ (s1.seeds.filter (fun x => x.core == k.core && x.ctx == k.ctx)).length < 64) ∧
      seedUsed s1 k.core (fun c => c == k.ctx) + k.lanes.length ≤ 2048 ∧ seedUsed s1 k.core (fun _ => true) + k.lanes.length ≤ 4096 ∧
      k.lanes = [l0] ∧ seedKey? s1 k.core k.ctx (keyOf b) = none ∧ (LaunchHdr.ofBytes b).sbtimer ≠ 0) ∧
    (∃ s s1 k m f l0 b, AtSlot s (.spawn m f) k ∧ k.lanes.head? = some l0 ∧ k.rd64 s f.a l0 % 128 = 0 ∧ k.rd64 s f.a l0 < 2 ^ 56 ∧
      readVirt (entered s k) k.who k.core k.ctx (k.rd64 s f.a l0) 128 .read = (s1, .inr b) ∧ (seedKey? s1 k.core k.ctx (keyOf b)).isSome ∧
      seedUsed s1 k.core (fun c => c == k.ctx) + k.lanes.length ≤ 2048 ∧ seedUsed s1 k.core (fun _ => true) + k.lanes.length ≤ 4096 ∧ k.lanes.length = 16) ∧
    (∃ (s : State) (core ctx key : Nat) (x : SeedKey) (t0 : Nat), seedKey? s core ctx key = some x ∧ x.start = some t0 ∧ t0 + x.hdr.sbtimer = s.now) ∧
    (∃ s k f, AtSlot s (.launch f) k ∧ k.ex ≠ 0 ∧ k.rd64 s f.a 0 % 128 = 0 ∧ launchCount s k.ctx < 1024 ∧ released k s 5 = true) ∧
    ∃ s k f, AtSlot s (.launchNode f) k ∧ k.ex ≠ 0 ∧ k.rd64 s f.a 0 % 64 = 0 ∧ launchCount s k.ctx < 1024 ∧ released k s 5 = true := by
  refine ⟨?_, ?_, ⟨timeOf 9 (withSeed (stand (.mov vf))), 0, 16, 0x2000, seedK, 0, by decide +kernel⟩,
    ⟨hdrAt 0xFFFF (.launch lnF), _, lnF, atSlot (by decide +kernel), by decide +kernel⟩, ⟨hdrAt 0xFFFF (.launchNode lnF), _, lnF, atSlot (by decide +kernel), by decide +kernel⟩⟩
  · let s := hdrAt 1 (.spawn .plain xf)
    let k := slotOf s (.spawn .plain xf)
    let x := readVirt (entered s k) k.who k.core k.ctx (k.rd64 s xf.a 0) 128 .read
    have h : (match x.2 with
      | .inr b => decide (seedHdrOk b = true ∧ (x.1.seeds.filter (fun x => x.core == k.core && x.ctx == k.ctx)).length < 64) &&
          decide (seedUsed x.1 k.core (fun c => c == k.ctx) + k.lanes.length ≤ 2048 ∧ seedUsed x.1 k.core (fun _ => true) + k.lanes.length ≤ 4096) &&
          decide (seedKey? x.1 k.core k.ctx (keyOf b) = none ∧ (LaunchHdr.ofBytes b).sbtimer ≠ 0)
      | _ => false) = true := by decide +kernel
    obtain ⟨s1, b, h1⟩ := rightOf (x := x) (by decide +kernel)
    rw [h1] at h
    simp only [Bool.and_eq_true, decide_eq_true_eq] at h
    exact ⟨s, s1, k, .plain, xf, 0, b, atSlot (by decide +kernel), by decide +kernel, by decide +kernel, by decide +kernel, h1, h.1.1, h.1.2.1, h.1.2.2, by decide +kernel, h.2.1, h.2.2⟩
  · let s := withSeed (hdrAt 0xFFFF (.spawn .plain xf))
    let k := slotOf s (.spawn .plain xf)
    let x := readVirt (entered s k) k.who k.core k.ctx (k.rd64 s xf.a 0) 128 .read
    have h : (match x.2 with
      | .inr b => (seedKey? x.1 k.core k.ctx (keyOf b)).isSome &&
          decide (seedUsed x.1 k.core (fun c => c == k.ctx) + k.lanes.length ≤ 2048 ∧ seedUsed x.1 k.core (fun _ => true) + k.lanes.length ≤ 4096)
      | _ => false) = true := by decide +kernel
    obtain ⟨s1, b, h1⟩ := rightOf (x := x) (by decide +kernel)
    rw [h1] at h
    simp only [Bool.and_eq_true, decide_eq_true_eq] at h
    exact ⟨s, s1, k, .plain, xf, 0, b, atSlot (by decide +kernel), by decide +kernel, by decide +kernel, by decide +kernel, h1, h.1, h.2.1, h.2.2, by decide +kernel⟩

/-- A launch of two blocks accepted on a device whose clusters all run. -/
def lnH : LaunchHdr := { fetchLaunch with dims := [2, 1, 1, 1], aff := 6, doneaddr := 0x8000, donetag := 5 }
def lnL : Launch := { (default : Launch) with id := 7, ctx := 16, hdr := lnH, hdrAddr := 0x8000, count := 2 }
def lnS : State :=
  let s := (stand (.mov vf)).updCtx 16 (fun c => { c with clusters := BitVec.allOnes 72 })
  { s with boot := { s.boot with clusters := BitVec.allOnes 72, dieRun := [true, true, true, true] },
           ctl := { s.ctl with partitions := [{ (default : Partition) with part := 1, clusters := BitVec.allOnes 72 }], launches := [lnL], pendings := [(1, .launch 7)] } }
def goneS : State := State.grp (stand (.mov vf)) (fun g => { g with exited := 0xFFFF, splits := [none, none, none, none] })
def overL : Launch := { lnL with next := 2 }
def overS : State := let s := dirtyS (stand (.mov vf)); { s with ctl := { s.ctl with launches := [overL] } }

theorem witness_LaunchEvents :
    (∃ (s : State) (core id : Nat) (pt : Nat) (ps : List (Nat × Pending)) (l : Launch), let s1 := frontEnd s
      (s1.coreAdmit.get core 0 = 0 ∨ s1.coreAdmit.get core 0 + 39 ≤ s1.now) ∧
      (∀ x ∈ s1.formed, x.core ≠ core) ∧ s1.ctl.pendings = (pt, .launch id) :: ps ∧ s1.ctl.launches.find? (fun l => l.id == id) = some l ∧
      (entryCtx s1 (.launch id)).isSome = true ∧ entryFits s1 core (.launch id) = true ∧ l.hdr.feedper = 0 ∧ (∀ g ∈ s1.groups, g.block ≠ s1.nextId)) ∧
    (∃ (s : State) (gid : Nat) (g : Group), s.group? gid = some g ∧ g.liveLanes = 0 ∧ g.queue = [] ∧ g.loads = [] ∧ blockBusy s g.block = false) ∧
    ∃ (s s1 : State) (id : Nat) (l : Launch) (pa ip : Nat), s.ctl.launches.find? (fun l => l.id == id) = some l ∧ l.count ≤ l.next ∧ l.live = 0 ∧ l.gwct ≤ s.now ∧
      l.hdr.doneaddr ≠ 0 ∧ l.hdr.doneaddr % 8 = 0 ∧ translate s (.control l.id) controlCore l.ctx l.hdr.doneaddr .write = (s1, .ok pa ip) ∧
      (markDirty (devWrite s1 pa (bytesOfNat 8 l.hdr.donetag)) l.ctx ip).2 = false := by
  refine ⟨⟨lnS, 287, 7, 1, [], lnL, by decide +kernel⟩, ⟨goneS, 1, goneS.getGroup 1, by decide +kernel⟩, ?_⟩
  let x := translate overS (.control 7) controlCore 16 0x8000 .write
  have h : (match x.2 with | .ok pa ip => (markDirty (devWrite x.1 pa (bytesOfNat 8 5)) 16 ip).2 | _ => true) = false := by decide +kernel
  obtain ⟨s1, pa, ip, h1⟩ := trOf (x := x) (by decide +kernel)
  rw [h1] at h
  exact ⟨overS, s1, 7, overL, pa, ip, by decide +kernel, by decide, rfl, by decide +kernel, by decide, by decide, h1, h⟩

/-! ## Matrix -/

/-- A program of the matrix sequencer of cluster 0 whose block and group are there. -/
def seqS (i : Instr) : State := let s := stand i; { s with groups := [fetchGroup State.reset 0], blocks := [fetchBlock State.reset] }
/-- M register n is x. -/
def setR (n x : Nat) (s : State) : State := s.updProg 0 true (fun p => { p with regs := p.regs.set 0 n (BitVec.ofNat 32 x) })
/-- Banks of the context on cluster 0. -/
def withBanks (ns : List Nat) (s : State) : State := { s with mx := { s.mx with banks := ns.map (fun n => ⟨16, 0, n, [], true⟩) } }
def withShp (x : Word) (s : State) : State := s.updProg 0 true (fun p => { p with shp := x })
def withQuota (n : Word) (s : State) : State := s.updCtx 16 (fun c => { c with abquota := n })
/-- The program's FMT is w. -/
def setPFmt (w : Word) (s : State) : State := s.updProg 0 true (fun p => { p with fmt := w, clause := p.clause.map (fun c => { c with fmt := w }) })

def shF : XForm := ⟨.const 17, .const 17, .const 17, 0, 0⟩
def abF : XForm := ⟨.scalar 2, .scalar 3, .v 0, 0, 0⟩
def abS (n : Nat) (i : Instr) : State := withQuota 128 (setR 3 n (seqS i))
def agF : XForm := ⟨.scalar 1, .scalar 3, .scalar 4, 0xF02, 1⟩
def arF : XForm := ⟨.v 0, .scalar 3, .v 0, 2, 2⟩
def grantS (g : Nat) : State := setR 1 127 (setR 4 1 (setR 3 g (withBanks [127] (seqS (.abgrant agF)))))
def aclF : XForm := ⟨.const 16, .const 17, .v 0, 0, 0⟩
def sfF : XForm := ⟨.v 0, .v 0, .v 0, 0, 0⟩

abbrev Run (s : State) (k : SlotCtx) (n b : Nat) : Prop :=
  b + n ≤ 128 ∧ ∀ i < n, ¬ ∃ x ∈ s.mx.banks, x.ctx = k.ctx ∧ x.cluster = k.cluster ∧ x.placed = true ∧ x.num = b + i
abbrev Alloc (s : State) (k : SlotCtx) (f : XForm) (d : BitVec 7) (n : Nat) : Prop :=
  AtSlot s (.aballoc f) k ∧ k.ex ≠ 0 ∧ f.a = .scalar d ∧ (k.rd s f.b 0).toNat = n ∧ 1 ≤ n ∧ n ≤ 128
def heldBy (s : State) (k : SlotCtx) : Nat := (s.mx.banks.filter (fun x => x.ctx == k.ctx && x.cluster == k.cluster && x.placed)).length
def usedOn (s : State) (k : SlotCtx) : Nat := (s.mx.banks.filter (fun x => x.cluster == k.cluster && x.placed)).length

theorem witness_MatrixSetup :
    (∃ (s : State) (k : SlotCtx) (f : XForm), AtSlot s (.shape f) k ∧ k.ex ≠ 0 ∧ Sys2Proof.codeClass (k.c.fmt.toNat / 2 ^ 28) = Sys2Proof.codeClass (k.c.fmt.toNat / 2 ^ 24 % 16) ∧
      (k.rd s f.a 0).toNat ≠ 0 ∧ (k.rd s f.b 0).toNat ≠ 0 ∧ (k.rd s f.c 0).toNat ≠ 0) ∧
    (∃ s k f d n, Alloc s k f d n ∧ ∀ b, ¬ Run s k n b) ∧ (∃ s k f d n, Alloc s k f d n ∧ min 128 ((s.getCtx k.ctx).abquota.toNat % 256) < heldBy s k + n) ∧
    (∃ s k f d n, Alloc s k f d n ∧ n = 128 ∧ Run s k n 0 ∧ heldBy s k + n ≤ min 128 ((s.getCtx k.ctx).abquota.toNat % 256) ∧ usedOn s k + n ≤ 128) ∧
    (∃ (s : State) (k : SlotCtx) (f : XForm), AtSlot s (.abfree f) k ∧ k.ex ≠ 0 ∧ k.p.queue = [] ∧ banksOk s k.ctx k.cluster (k.rd s f.a 0).toNat (k.rd s f.b 0).toNat = true ∧
      (k.rd s f.b 0).toNat ≠ 0) ∧
    (∃ (s : State) (k : SlotCtx) (f : XForm), AtSlot s (.abgrant f) k ∧ k.ex ≠ 0 ∧ (k.rd s f.b 0).toNat ≤ 31 ∧ (k.rd s f.c 0).toNat ≠ 0 ∧ (k.rd s f.a 0).toNat + (k.rd s f.c 0).toNat ≤ 128 ∧
      (f.bank.extractLsb' 8 4).toNat + (f.bank.extractLsb' 4 4).toNat + 1 ≤ 16 ∧ banksOk s k.ctx k.cluster (k.rd s f.a 0).toNat (k.rd s f.c 0).toNat = true ∧
      boundGroup s k.p.block (k.rd s f.b 0).toNat = none) ∧
    (∃ (s : State) (k : SlotCtx) (f : XForm) (g : Group), AtSlot s (.abgrant f) k ∧ k.ex ≠ 0 ∧ (k.rd s f.b 0).toNat ≤ 31 ∧ (k.rd s f.c 0).toNat ≠ 0 ∧
      (k.rd s f.a 0).toNat + (k.rd s f.c 0).toNat = 128 ∧ (f.bank.extractLsb' 8 4).toNat + (f.bank.extractLsb' 4 4).toNat + 1 = 16 ∧
      banksOk s k.ctx k.cluster (k.rd s f.a 0).toNat (k.rd s f.c 0).toNat = true ∧ boundGroup s k.p.block (k.rd s f.b 0).toNat = some g) ∧
    (∃ (s : State) (k : SlotCtx) (f : XForm), AtSlot s (.abgrantRevoke f) k ∧ k.ex ≠ 0 ∧ (k.rd s f.b 0).toNat = 31 ∧ boundGroup s k.p.block (k.rd s f.b 0).toNat = none) ∧
    (∃ (s : State) (k : SlotCtx) (f : XForm) (g : Group), AtSlot s (.abgrantRevoke f) k ∧ k.ex ≠ 0 ∧ (k.rd s f.b 0).toNat ≤ 31 ∧ boundGroup s k.p.block (k.rd s f.b 0).toNat = some g) ∧
    (∃ (s : State) (k : SlotCtx) (f : XForm), AtSlot s (.aclr f) k ∧ k.ex ≠ 0 ∧ banksOk s k.ctx k.cluster (k.rd s f.a 0).toNat (k.rd s f.b 0).toNat = true ∧
      (k.p.queue.filter (fun o => !o.started)).length < 8) ∧
    ∃ (s : State) (k : SlotCtx) (f : XForm), AtSlot s (.sfence f) k ∧ ∀ o ∈ k.p.queue, o.readAt = true := by
  refine ⟨⟨seqS (.shape shF), slotOf (seqS (.shape shF)) (.shape shF), shF, atSlot (by decide +kernel), by decide +kernel⟩,
    ⟨withBanks [0] (abS 128 (.aballoc abF)), slotOf (withBanks [0] (abS 128 (.aballoc abF))) (.aballoc abF), abF, 2, 128, ⟨atSlot (by decide +kernel), by decide +kernel⟩, ?_⟩,
    ⟨withQuota 1 (abS 2 (.aballoc abF)), slotOf (withQuota 1 (abS 2 (.aballoc abF))) (.aballoc abF), abF, 2, 2, ⟨atSlot (by decide +kernel), by decide +kernel⟩, by decide +kernel⟩,
    ⟨abS 128 (.aballoc abF), slotOf (abS 128 (.aballoc abF)) (.aballoc abF), abF, 2, 128, ⟨atSlot (by decide +kernel), by decide +kernel⟩, rfl, by decide +kernel⟩,
    ⟨withBanks [0] (seqS (.abfree aclF)), slotOf (withBanks [0] (seqS (.abfree aclF))) (.abfree aclF), aclF, atSlot (by decide +kernel), by decide +kernel⟩,
    ⟨grantS 31, slotOf (grantS 31) (.abgrant agF), agF, atSlot (by decide +kernel), by decide +kernel⟩,
    ⟨grantS 0, slotOf (grantS 0) (.abgrant agF), agF, fetchGroup State.reset 0, atSlot (by decide +kernel), by decide +kernel⟩,
    ⟨setR 3 31 (seqS (.abgrantRevoke arF)), slotOf (setR 3 31 (seqS (.abgrantRevoke arF))) (.abgrantRevoke arF), arF, atSlot (by decide +kernel), by decide +kernel⟩,
    ⟨seqS (.abgrantRevoke arF), slotOf (seqS (.abgrantRevoke arF)) (.abgrantRevoke arF), arF, fetchGroup State.reset 0, atSlot (by decide +kernel), by decide +kernel⟩,
    ⟨withBanks [0] (seqS (.aclr aclF)), slotOf (withBanks [0] (seqS (.aclr aclF))) (.aclr aclF), aclF, atSlot (by decide +kernel), by decide +kernel⟩,
    ⟨seqS (.sfence sfF), slotOf (seqS (.sfence sfF)) (.sfence sfF), sfF, atSlot (by decide +kernel), by decide +kernel⟩⟩
  intro b hb
  have h0 : b = 0 := by have := hb.1; omega
  subst h0
  exact hb.2 0 (by decide) ⟨⟨16, 0, 0, [], true⟩, by decide +kernel⟩

/-- 16 rows, 64 columns, 16 deep, class c. -/
def shpW (c : Nat) : Word := BitVec.ofNat 32 (16 + 64 * 2 ^ 9 + 16 * 2 ^ 18 + c * 2 ^ 25)
def mmaF : XForm := ⟨.scalar 1, .scalar 2, .scalar 4, 0x380, 1⟩
def mmapF : XForm := ⟨.scalar 1, .scalar 3, .scalar 4, 0x390, 1⟩
def guideF : XForm := ⟨.scalar 1, .const 17, .v 0, 0x390, 0⟩
def operand : MOperand := ⟨0x03000000, recB 0x100 7 2 0 1 4 4 8⟩
/-- Record 0 is a 4 by 4 operand in the scratchpad; banks 0 and 1 are there. -/
def mmaS (i : Instr) : State :=
  withShp (shpW 0) (withBanks [0, 1] (setR 1 0x03000000 (setR 2 0x03000000 (setR 3 0x03000000 (setR 8 1 (withRec operand.bytes (seqS i)))))))
/-- The pair slot 1 has a conditional member. -/
def mmapS : State := (mmaS (.mmap .bf16 mmapF)).updBlock 2 (fun b => { b with pairs := [(1, { (default : PairSlot) with cmem := some 0 })] })

def sameOps (x : State × (Tr ⊕ List MOperand)) (os : List MOperand) : Bool :=
  match x.2 with
  | .inr l => decide (l = os)
  | _ => false
theorem opsOf {x : State × (Tr ⊕ List MOperand)} {os : List MOperand} (h : sameOps x os = true) : x = (x.1, .inr os) := by
  obtain ⟨s, y⟩ := x
  cases y with
  | inl t => cases h
  | inr l => simp only [sameOps, decide_eq_true_eq] at h; rw [h]

theorem witness_ArrayIssue :
    (∃ (s s1 : State) (k : SlotCtx) (m : MmaFmt) (f : XForm) (org : Nat × Nat × Nat) (oa ob : MOperand), AtSlot s (.mma m f) k ∧ k.ex ≠ 0 ∧
      originOf k f.c = some org ∧ k.p.shp ≠ 0 ∧ shpClass k.p.shp = minorClass m ∧ Sys2Proof.codeClass (k.c.fmt.toNat / 2 ^ 28) = minorClass m ∧
      Sys2Proof.codeClass (k.c.fmt.toNat / 2 ^ 24 % 16) = minorClass m ∧
      resolveAll (enteredCtx s k) ((entered s k).getBlock k.p.block).core [k.rd s f.a 0, k.rd s f.b 0] (entered s k) = (s1, .inr [oa, ob]) ∧
      recordFits (minorClass m) oa.bytes = true ∧ recordFits (minorClass m) ob.bytes = true ∧ (m = .int → org.2.2 % 32 = 0) ∧
      operandBad (s1.getBlock k.p.block) oa.bytes (minorClass m) (fmtPrec k.c.fmt) true k.p.shp org = false ∧
      operandBad (s1.getBlock k.p.block) ob.bytes (minorClass m) (fmtPrec k.c.fmt) false k.p.shp org = false ∧
      banksOk s1 k.ctx k.cluster (k.sword (bankReg f)).toNat (tileBanks k.p.shp) = true ∧ (k.p.queue.filter (fun o => !o.started)).length < 8) ∧
    (∃ (s s1 : State) (k : SlotCtx) (m : MmaFmt) (f : XForm) (a : BitVec 7) (org : Nat × Nat × Nat) (o1 o2 ob : MOperand), AtSlot s (.mmap m f) k ∧ k.ex ≠ 0 ∧
      f.a = .scalar a ∧ a.toNat ≤ 30 ∧ bankReg f ≤ 30 ∧ originOf k f.c = some org ∧ k.p.shp ≠ 0 ∧ shpClass k.p.shp = minorClass m ∧
      Sys2Proof.codeClass (k.c.fmt.toNat / 2 ^ 28) = minorClass m ∧ Sys2Proof.codeClass (k.c.fmt.toNat / 2 ^ 24 % 16) = minorClass m ∧
      resolveAll (enteredCtx s k) ((entered s k).getBlock k.p.block).core [k.sword a.toNat, k.sword (a.toNat + 1), k.rd s f.b 0] (entered s k) = (s1, .inr [o1, o2, ob]) ∧
      (∀ x ∈ [o1, o2, ob], recordFits (minorClass m) x.bytes = true) ∧ (m = .int → org.2.2 % 32 = 0) ∧
      (∀ x ∈ [o1, o2], operandBad (s1.getBlock k.p.block) x.bytes (minorClass m) (fmtPrec k.c.fmt) true k.p.shp org = false) ∧
      operandBad (s1.getBlock k.p.block) ob.bytes (minorClass m) (fmtPrec k.c.fmt) false k.p.shp org = false ∧
      banksOk s1 k.ctx k.cluster (k.sword (bankReg f)).toNat (tileBanks k.p.shp) = true ∧
      banksOk s1 k.ctx k.cluster (k.sword (bankReg f + 1)).toNat (tileBanks k.p.shp) = true ∧
      ((progPair s1 k.p (bankSlot f)).cmem ≠ none ∨ (progPair s1 k.p (bankSlot f)).umem ≠ none) ∧ (k.p.queue.filter (fun o => !o.started)).length < 8) ∧
    ∃ (s : State) (k : SlotCtx) (f : XForm) (n : Nat), AtSlot s (.guide f) k ∧ k.ex ≠ 0 ∧ bankReg f ≤ 30 ∧ (k.rd s f.b 0).toNat = n ∧ 1 ≤ n ∧ n ≤ 32 ∧
      banksOk s k.ctx k.cluster (k.sword (bankReg f)).toNat n = true ∧ banksOk s k.ctx k.cluster (k.sword (bankReg f + 1)).toNat n = true ∧
      (k.p.queue.filter (fun o => !o.started)).length < 8 := by
  refine ⟨?_, ?_, ⟨mmaS (.guide guideF), slotOf (mmaS (.guide guideF)) (.guide guideF), guideF, 1, atSlot (by decide +kernel), by decide +kernel⟩⟩
  · let s := mmaS (.mma .bf16 mmaF)
    let k := slotOf s (.mma .bf16 mmaF)
    let x := resolveAll (enteredCtx s k) ((entered s k).getBlock k.p.block).core [k.rd s mmaF.a 0, k.rd s mmaF.b 0] (entered s k)
    exact ⟨s, x.1, k, .bf16, mmaF, (0, 0, 0), operand, operand, atSlot (by decide +kernel), by decide +kernel, by decide +kernel, by decide +kernel, by decide +kernel, by decide +kernel,
      by decide +kernel, opsOf (by decide +kernel), by decide +kernel⟩
  · let s := mmapS
    let k := slotOf s (.mmap .bf16 mmapF)
    let x := resolveAll (enteredCtx s k) ((entered s k).getBlock k.p.block).core [k.sword 1, k.sword 2, k.rd s mmapF.b 0] (entered s k)
    exact ⟨s, x.1, k, .bf16, mmapF, 1, (0, 0, 0), operand, operand, operand, atSlot (by decide +kernel), by decide +kernel, rfl, by decide, by decide, by decide +kernel, by decide +kernel,
      by decide +kernel, by decide +kernel, by decide +kernel, opsOf (by decide +kernel), by decide +kernel⟩

/-- The head of the queue of the sequencer's program. -/
def arr (k : ArrKind) (st rd : Bool) (rows : List (Nat × Nat × List Word)) : ArrOp :=
  { (default : ArrOp) with kind := k, started := st, readAt := rd, rows := rows, shp := shpW 0, a := operand, b := operand }
def arrQ (o : ArrOp) : State := (withBanks [0, 1] (seqS (.sfence sfF))).updProg 0 true (fun p => { p with queue := [o] })
def arrP (o : ArrOp) : Prog := ((arrQ o).prog? 0 true).getD default
/-- An MMAP that waits for its second member: both members, one ready. -/
def waitO : ArrOp := { arr (.mmap 1) true false [] with waited := 1, pres := 3 }
def waitQ : State := (setScr 0 16 0 (arrQ waitO)).updBlock 2 (fun b => { b with pairs := [(1, ⟨some 0, some 1, 0, 8, 1, 0, false, false⟩)] })

theorem witness_ArrayRuns :
    (∃ (s : State) (cluster n : Nat) (p : Prog) (o : ArrOp) (os : List ArrOp), s.prog? cluster true = some p ∧ p.queue = o :: os ∧ p.stopped = false ∧ o.readAt = false ∧ o.kind = .aclr n) ∧
    (∃ (s : State) (cluster : Nat) (p : Prog) (o : ArrOp) (os : List ArrOp), s.prog? cluster true = some p ∧ p.queue = o :: os ∧ p.stopped = false ∧ o.readAt = false ∧ o.kind = .mma) ∧
    (∃ (o : ArrOp) (ps : List (Nat × Nat)), o.fmt = .int ∧ o.sat = false ∧ fmtAccSat o.fmtw = false ∧ fmtPrec o.fmtw = 8 ∧ fmtA o.fmtw = 2 ∧ fmtB o.fmtw = 3 ∧ ps = [(0x80, 0xFF), (0x7F, 1)] ∧
      ∀ x ∈ ps, x.1 < 2 ^ fmtPrec o.fmtw ∧ x.2 < 2 ^ fmtPrec o.fmtw) ∧
    (∃ (s : State) (cluster pick b r : Nat) (ws : List Word) (p : Prog) (o : ArrOp) (os : List ArrOp), s.prog? cluster true = some p ∧ p.queue = o :: os ∧ o.started = true ∧
      o.rows[pick % max 1 o.rows.length]? = some (b, r, ws) ∧ ws.length = 64 ∧ (s.bank? p.ctx cluster b).isSome = true) ∧
    (∃ (s : State) (cluster : Nat) (p : Prog) (o : ArrOp) (os : List ArrOp), s.prog? cluster true = some p ∧ p.queue = o :: os ∧ o.started = true ∧ o.readAt = true ∧
      o.rows = [] ∧ p.live = true) ∧
    ∃ (s : State) (cluster : Nat) (p : Prog) (o : ArrOp) (os : List ArrOp), s.prog? cluster true = some p ∧ p.queue = o :: os ∧ p.stopped = false ∧
      o.waits (s.getBlock p.block) = true ∧ (s.getCtx p.ctx).pair.toNat % 65536 ≤ o.waited := by
  let r0 : Nat × Nat × List Word := (1, 15, List.replicate 64 7)
  exact ⟨⟨arrQ (arr (.aclr 2) false false []), 0, 2, arrP (arr (.aclr 2) false false []), arr (.aclr 2) false false [], [], by decide +kernel, by decide +kernel, by decide +kernel, rfl, rfl⟩,
    ⟨arrQ (arr .mma false false []), 0, arrP (arr .mma false false []), arr .mma false false [], [], by decide +kernel, by decide +kernel, by decide +kernel, rfl, rfl⟩,
    ⟨{ arr .mma true true [] with fmt := .int, fmtw := 0x2300001C }, [(0x80, 0xFF), (0x7F, 1)], by decide +kernel⟩,
    ⟨arrQ (arr .mma true true [r0, r0]), 0, 1, 1, 15, List.replicate 64 7, arrP (arr .mma true true [r0, r0]), arr .mma true true [r0, r0], [], by decide +kernel, by decide +kernel, rfl, rfl, rfl,
      by decide +kernel⟩,
    ⟨arrQ (arr .mma true true []), 0, arrP (arr .mma true true []), arr .mma true true [], [], by decide +kernel, by decide +kernel, rfl, rfl, rfl, by decide +kernel⟩,
    ⟨waitQ, 0, arrP waitO, waitO, [], by decide +kernel, by decide +kernel, by decide +kernel, by decide +kernel, by decide +kernel⟩⟩

def pairF : VForm := { vf with a := .const 23, b := .scalar 3, c := .scalar 4 }
/-- Slot 7 of the block, a member, and an arrival word at the end of the scratchpad. -/
def pairS (role : Nat) (q : PairSlot) (i : Instr) : State := setSs 3 [role, 0xFF8] ((stand i).updBlock 2 (fun b => { b with pairs := [(7, q)] }))
def unF : VForm := { vf with a := .const 23 }
abbrev Binder (s : State) (k : SlotCtx) (f : VForm) (n role aw : Nat) : Prop :=
  AtSlot s (.pairBind f) k ∧ isSplit k.u = true ∧ k.ex ≠ 0 ∧
    (∀ l ∈ k.lanes, (k.rd s f.a l).toNat = n ∧ (k.rd s f.b l).toNat = role ∧ (k.rd s f.c l).toNat = aw) ∧ n = 7 ∧ role ≤ 1 ∧ aw % 8 = 0 ∧ aw + 8 ≤ 256 * (s.getBlock k.g.block).hdr.scratch
def noPair : PairSlot := default
def bandF : XForm := ⟨.v 8, .const 17, .const 31, 0, 0⟩
def bandS (i : Instr) : State := withBanks [1] (State.grp (stand i) (fun g => { g with bands := [none, some ⟨0, 2, 0, 16, true⟩] }))
abbrev Banded (s : State) (k : SlotCtx) (f : XForm) (a : BitVec 9) (b row : Nat) (d : Band) : Prop :=
  isSplit k.u = true ∧ k.ex ≠ 0 ∧ f.a = .v a ∧ (∀ l ∈ k.lanes, (k.rd s f.b l).toNat = b ∧ (k.rd s f.c l).toNat = row) ∧ k.g.hdr.width ≠ 0 ∧
    row + (f.flags.extractLsb' 0 4).toNat + 1 ≤ 16 ∧ a.toNat + (64 * ((f.flags.extractLsb' 0 4).toNat + 1) + k.g.hdr.width - 1) / k.g.hdr.width ≤ k.g.vregs ∧
    (s.bank? k.ctx k.cluster b).isSome = true ∧ some d ∈ k.g.bands ∧ d.bank ≤ b ∧ b < d.bank + d.n ∧ d.row0 ≤ row ∧
    row + (f.flags.extractLsb' 0 4).toNat + 1 ≤ d.row0 + d.h ∧ (f.flags.extractLsb' 4 2).toNat = 0 ∧ ∀ l ∈ k.lanes, l < k.g.hdr.width
def trF : XForm := ⟨.v 63, .v 3, .v 0, 0, 0⟩

theorem witness_PairsAndBands :
    (∃ s k f n role aw, Binder s k f n role aw ∧ role = 0 ∧ ((s.getBlock k.g.block).pairs.get n default).cmem = some (k.g.gidx + 1)) ∧
    (∃ s k f n role aw, Binder s k f n role aw ∧ role = 1 ∧ ((s.getBlock k.g.block).pairs.get n default).umem = none ∧ ((s.getBlock k.g.block).pairs.get n default).cmem = some k.g.gidx) ∧
    (∃ s k f n role aw, Binder s k f n role aw ∧ role = 1 ∧ ((s.getBlock k.g.block).pairs.get n default).umem = none ∧ ((s.getBlock k.g.block).pairs.get n default).cmem = none) ∧
    (∃ (s : State) (k : SlotCtx) (f : VForm) (n : Nat) (b : Block), AtSlot s (.pairUnbind f) k ∧ isSplit k.u = true ∧ k.ex ≠ 0 ∧ (∀ l ∈ k.lanes, (k.rd s f.a l).toNat = n) ∧ n = 7 ∧
      s.block? k.g.block = some b ∧ (b.pairs.get n default).cmem ≠ some k.g.gidx ∧ (b.pairs.get n default).umem ≠ some k.g.gidx) ∧
    (∃ (s : State) (k : SlotCtx) (f : VForm) (n : Nat) (b : Block), AtSlot s (.pairUnbind f) k ∧ isSplit k.u = true ∧ k.ex ≠ 0 ∧ (∀ l ∈ k.lanes, (k.rd s f.a l).toNat = n) ∧ n ≤ 7 ∧
      s.block? k.g.block = some b ∧ (b.pairs.get n default).umem = some k.g.gidx) ∧
    (∃ s k f a b row d, Banded s k f a b row d ∧ AtSlot s (.ard f) k) ∧ (∃ s k f a b row d, Banded s k f a b row d ∧ AtSlot s (.awr f) k ∧ d.w = true) ∧
    ∃ (s : State) (k : SlotCtx) (f : XForm) (d : BitVec 9), AtSlot s (.trbp f) k ∧ isSplit k.u = true ∧ f.a = .v d ∧ k.lanes ≠ [] :=
  ⟨⟨pairS 0 { noPair with cmem := some 1 } (.pairBind pairF), slotOf (pairS 0 { noPair with cmem := some 1 } (.pairBind pairF)) (.pairBind pairF), pairF, 7, 0, 0xFF8,
     ⟨atSlot (by decide +kernel), by decide +kernel⟩, rfl, by decide +kernel⟩,
   ⟨pairS 1 { noPair with cmem := some 0 } (.pairBind pairF), slotOf (pairS 1 { noPair with cmem := some 0 } (.pairBind pairF)) (.pairBind pairF), pairF, 7, 1, 0xFF8,
     ⟨atSlot (by decide +kernel), by decide +kernel⟩, rfl, by decide +kernel⟩,
   ⟨pairS 1 noPair (.pairBind pairF), slotOf (pairS 1 noPair (.pairBind pairF)) (.pairBind pairF), pairF, 7, 1, 0xFF8, ⟨atSlot (by decide +kernel), by decide +kernel⟩, rfl, by decide +kernel⟩,
   ⟨pairS 0 { noPair with cmem := some 1 } (.pairUnbind unF), slotOf (pairS 0 { noPair with cmem := some 1 } (.pairUnbind unF)) (.pairUnbind unF), unF, 7,
     (pairS 0 { noPair with cmem := some 1 } (.pairUnbind unF)).getBlock 2, atSlot (by decide +kernel), by decide +kernel⟩,
   ⟨pairS 0 { noPair with umem := some 0 } (.pairUnbind unF), slotOf (pairS 0 { noPair with umem := some 0 } (.pairUnbind unF)) (.pairUnbind unF), unF, 7,
     (pairS 0 { noPair with umem := some 0 } (.pairUnbind unF)).getBlock 2, atSlot (by decide +kernel), by decide +kernel⟩,
   ⟨bandS (.ard bandF), slotOf (bandS (.ard bandF)) (.ard bandF), bandF, 8, 1, 15, ⟨0, 2, 0, 16, true⟩, by decide +kernel, atSlot (by decide +kernel)⟩,
   ⟨bandS (.awr bandF), slotOf (bandS (.awr bandF)) (.awr bandF), bandF, 8, 1, 15, ⟨0, 2, 0, 16, true⟩, by decide +kernel, atSlot (by decide +kernel), rfl⟩,
   ⟨stand (.trbp trF), _, trF, 63, atSlot (by decide +kernel), by decide +kernel⟩⟩

/-! ## Traps, registers, counters -/

def trapF : YForm := { yf with dst := .zero, sysid := 7 }
def tretF : YForm := { yf with dst := .zero }
/-- The split runs a handler. -/
def inHandler (s : State) : State := State.grp s (fun g => { g with splits := g.splits.map (fun x => x.map (fun sp => { sp with handler := some 0 })) })

theorem ctxSome {s : State} {i : Instr} (h : (slotCtx s i).isSome = true) : slotCtx s i = some (slotOf s i) := by
  obtain ⟨k, hk⟩ := Option.isSome_iff_exists.mp h
  simp [slotOf, hk]

theorem witness_TrapInstructions :
    (∃ (s : State) (k : SlotCtx) (f : YForm), AtSlot s (.trap f) k ∧ isSplit k.u = true ∧ ∀ l ∈ k.lanes, k.rd s f.src l = 0) ∧
    (∃ (s : State) (k : SlotCtx) (f : YForm), AtSlot s (.trap f) k ∧ isSplit k.u = true ∧ ∃ l ∈ k.lanes, k.rd s f.src l ≠ 0) ∧
    (∃ (s : State) (k : SlotCtx) (f : YForm), AtSlot s (.tret f) k ∧ isSplit k.u = true ∧ k.park = none ∧ k.sp.handler = none) ∧
    (∃ (s : State) (k : SlotCtx) (f : YForm), AtSlot s (.tret f) k ∧ isSplit k.u = true ∧ k.park = none ∧ k.sp.handler.isSome = true) ∧
    ∃ (s : State) (k : SlotCtx) (f : VForm), slotCtx s (.bsad4 f) = some k ∧ isSplit k.u = true :=
  ⟨⟨stand (.trap trapF), _, trapF, atSlot (by decide +kernel), by decide +kernel⟩, ⟨setS 4 1 (stand (.trap trapF)), _, trapF, atSlot (by decide +kernel), by decide +kernel⟩,
   ⟨stand (.tret tretF), _, tretF, atSlot (by decide +kernel), by decide +kernel⟩, ⟨inHandler (stand (.tret tretF)), _, tretF, atSlot (by decide +kernel), by decide +kernel⟩,
   ⟨stand (.bsad4 v3f), slotOf (stand (.bsad4 v3f)) (.bsad4 v3f), v3f, ctxSome (by decide +kernel), by decide +kernel⟩⟩

def rdF (r : BitVec 16) : YForm := { yf with sysid := r }
def rdS (r : BitVec 16) (x : Word) : State := setS 4 x (stand (.rdsr (rdF r)))
/-- A second context of the partition; a third of another. -/
def withCtx (c : Ctx) (s : State) : State := { s with ctxs := s.ctxs ++ [c] }
def ctxB (n auth part run : Nat) : Ctx := { (default : Ctx) with num := n, auth := auth, part := part, run := run, bkt := [default, default, default] }
def bigG : Group := { fetchGroup State.reset 0 with spillBase := 2 ^ 64 - 1, spillLim := 2 ^ 32 - 1, burst := 2 ^ 32 - 1, depth := [(0, 1023)] }
def regS : State := State.grp (stand (.mov vf)) (fun _ => bigG)

theorem witness_RegisterReads :
    (∃ (s : State) (k : SlotCtx) (f : YForm), AtSlot s (.rdsr f) k ∧ k.lanes ≠ [] ∧
      ∀ l ∈ k.lanes, (readReg (entered s k) (k.gid, k.entry) k.ctx (Sys2Proof.namesCtx k (k.rd s f.src l)) f.sysid.toNat).isSome = true) ∧
    (∃ (s : State) (k : SlotCtx) (f : YForm), AtSlot s (.rdsr f) k ∧ isSplit k.u = true ∧
      ∃ l ∈ k.lanes, readReg (entered s k) (k.gid, k.entry) k.ctx (Sys2Proof.namesCtx k (k.rd s f.src l)) f.sysid.toNat = none) ∧
    (∃ (s : State) (gid c : Nat) (g : Group), s.liveCtx c = true ∧ s.group? gid = some g ∧ (s.getCtx c).auth < 4 ∧ (s.getCtx c).audscope < 2 ^ 16 ∧ (s.getCtx c).part < 16 ∧
      g.spillBase < 2 ^ 64 ∧ g.spillLim < 2 ^ 32 ∧ g.maxDepth < 2 ^ 10 ∧ g.burst < 2 ^ 32 ∧ c < 4096) ∧
    (∃ (s : State) (a c : Nat), a ≠ c ∧ s.liveCtx c = false) ∧ (∃ (s : State) (a c : Nat), a ≠ c ∧ (s.getCtx a).auth = 2) ∧
    (∃ (s : State) (a c : Nat), a ≠ c ∧ (s.getCtx a).auth = 1 ∧ (s.getCtx a).part ≠ (s.getCtx c).part) ∧ ∃ a c r : Nat, a ≠ c ∧ r = 0x0C :=
  ⟨⟨rdS 0x1D 0xFFFFFFFF, _, rdF 0x1D, atSlot (by decide +kernel), by decide +kernel, by decide +kernel⟩,
   ⟨rdS 0x03 4096, _, rdF 0x03, atSlot (by decide +kernel), by decide +kernel, by decide +kernel⟩,
   ⟨regS, 1, 16, bigG, by decide +kernel⟩, ⟨regS, 16, 17, by decide +kernel⟩, ⟨regS, 16, 17, by decide +kernel⟩,
   ⟨withCtx (ctxB 17 2 2 1) (stand (.evict yf)), 16, 17, by decide +kernel⟩, ⟨0, 1, 0x0C, by decide, rfl⟩⟩

/-- Only the lanes of m are in the clause. -/
def onlyM (m : Mask) (s : State) : State :=
  State.grp s (fun g => { g with splits := g.splits.map (fun x => x.map (fun sp => { sp with mask := m, clause := sp.clause.map (fun c => { c with sub := m, subs := [m, 0, 0, 0] }) })) })
def wrF (r : BitVec 16) : YWForm := ⟨false, .scalar 4, .scalar 6, r, 0⟩
def wrS (r : BitVec 16) (x : Nat) : State := onlyM 4 (setSs 4 [0xFFFFFFFF, 0, x % 2 ^ 32, x / 2 ^ 32] (stand (.wrsr (wrF r))))

theorem one_lane {P : List Nat → Nat → Prop} {l0 : Nat} (h : P [] l0) : ∀ pre l post, [l0] = pre ++ l :: post → P pre l := by
  intro pre l post e
  cases pre with
  | nil => simp only [List.nil_append, List.cons.injEq] at e; exact e.1 ▸ h
  | cons a as => simp at e

theorem witness_RegisterWrites :
    (∃ (s : State) (k : SlotCtx) (f : YWForm), AtSlot s (.wrsr f) k ∧ k.lanes ≠ [] ∧ ∀ pre l post, k.lanes = pre ++ l :: post →
      writeBad (pre.foldl (fun t l => writeReg t (k.gid, k.entry) (Sys2Proof.namesCtx k (k.rd s f.ctx l)) f.sysid.toNat (Sys2Proof.wrsrValue f k s l)) (entered s k)) (k.gid, k.entry) k.ctx
        (Sys2Proof.namesCtx k (k.rd s f.ctx l)) f.sysid.toNat (Sys2Proof.wrsrValue f k s l) = none) ∧
    (∃ (s : State) (k : SlotCtx) (f : YWForm) (l : Nat) (cause : Cause), AtSlot s (.wrsr f) k ∧ isSplit k.u = true ∧ k.lanes = [l] ∧
      writeBad (entered s k) (k.gid, k.entry) k.ctx (Sys2Proof.namesCtx k (k.rd s f.ctx l)) f.sysid.toNat (Sys2Proof.wrsrValue f k s l) = some cause) ∧
    (∃ (s : State) (gid c r v : Nat) (g : Group), s.ctx? c = some (s.getCtx c) ∧ (s.getCtx c).run ≠ 7 ∧ s.group? gid = some g ∧ r = 0x0E ∧ v = 0x1FFF ∧ v < 2 ^ 32) ∧
    (∃ (s : State) (gid c r v : Nat) (g : Group), s.ctx? c = some (s.getCtx c) ∧ (s.getCtx c).run ≠ 7 ∧ s.group? gid = some g ∧ r = 0x05 ∧ v = 0xFFFFFFFFFFF000 ∧ sysWords r = 2) ∧
    (∃ (s : State) (c r : Nat), s.liveCtx c = true ∧ r = 0x04) ∧
    ∃ (s : State) (gid e c r v : Nat), s.liveCtx c = true ∧ r = 0x0B ∧ ∃ x ∈ regFields r, x.res = false ∧ bitsOf v x.lo x.n ≠ bitsOf (regValue s (gid, e) (s.getCtx c) r) x.lo x.n := by
  refine ⟨⟨wrS 0x0F 0x4000, slotOf (wrS 0x0F 0x4000) (.wrsr (wrF 0x0F)), wrF 0x0F, atSlot (by decide +kernel), by decide +kernel, ?_⟩,
    ⟨wrS 0x0F 0x4001, _, wrF 0x0F, 2, .reservedField, atSlot (by decide +kernel), by decide +kernel⟩,
    ⟨regS, 1, 16, 0x0E, 0x1FFF, bigG, by decide +kernel⟩, ⟨regS, 1, 16, 0x05, 0xFFFFFFFFFFF000, bigG, by decide +kernel⟩, ⟨regS, 16, 0x04, by decide +kernel⟩,
    ⟨regS, 1, 0, 16, 0x0B, 1, by decide +kernel⟩⟩
  have hl : (slotOf (wrS 0x0F 0x4000) (.wrsr (wrF 0x0F))).lanes = [2] := by decide +kernel
  rw [hl]
  exact one_lane (by decide +kernel)

def cnF : YForm := { yf with sysid := 0x12 }
def cnS (x : Word) : State := setS 4 x (stand (.cntrd cnF))
def bkF : YForm := { yf with sysid := 2 }
def bkS (x : Word) (lv : Int) : State := setS 4 x ((stand (.bktrd bkF)).updCtx 16 (fun c => { c with bkt := [default, default, { (default : Bucket) with level := lv }] }))

theorem witness_CountersAndBuckets :
    (∃ (s : State) (k : SlotCtx) (f : YForm) (x : Nat), AtSlot s (.cntrd f) k ∧ k.lanes ≠ [] ∧ (∀ l ∈ k.lanes, k.rd s f.src l = 0xFFFFFFFF) ∧ x = 0) ∧
    (∃ (s : State) (k : SlotCtx) (f : YForm), AtSlot s (.cntrd f) k ∧ k.lanes ≠ [] ∧ ∀ l ∈ k.lanes, k.rd s f.src l ≠ 0xFFFFFFFF ∧ (entered s k).liveCtx (k.rd s f.src l).toNat = true ∧
      ((entered s k).getCtx k.ctx).part = ((entered s k).getCtx (k.rd s f.src l).toNat).part) ∧
    (∃ (s : State) (k : SlotCtx) (f : YForm), AtSlot s (.cntrd f) k ∧ isSplit k.u = true ∧ ∃ l ∈ k.lanes, k.rd s f.src l ≠ 0xFFFFFFFF ∧ (entered s k).liveCtx (k.rd s f.src l).toNat = false) ∧
    (∃ (s : State) (k : SlotCtx) (f : YForm), AtSlot s (.bktrd f) k ∧ k.lanes ≠ [] ∧ (∀ l ∈ k.lanes, (entered s k).liveCtx (Sys2Proof.namesCtx k (k.rd s f.src l)) = true ∧
        ((entered s k).getCtx (Sys2Proof.namesCtx k (k.rd s f.src l))).part = ((entered s k).getCtx k.ctx).part ∧ Sys2Proof.namesCtx k (k.rd s f.src l) = k.ctx) ∧
      ∀ l ∈ k.lanes, let b := ((entered s k).getCtx (Sys2Proof.namesCtx k (k.rd s f.src l))).bkt.getD f.sysid.toNat default
        b.rate ≠ 0x3FFFFF ∧ b.level = -2 ^ 39) ∧
    ∃ (s : State) (k : SlotCtx) (f : YForm), AtSlot s (.bktrd f) k ∧ isSplit k.u = true ∧ ∃ l ∈ k.lanes, (entered s k).liveCtx (Sys2Proof.namesCtx k (k.rd s f.src l)) = false ∧
      Sys2Proof.namesCtx k (k.rd s f.src l) ≠ k.ctx :=
  ⟨⟨cnS 0xFFFFFFFF, _, cnF, 0, atSlot (by decide +kernel), by decide +kernel⟩, ⟨cnS 16, _, cnF, atSlot (by decide +kernel), by decide +kernel⟩,
   ⟨cnS 4096, _, cnF, atSlot (by decide +kernel), by decide +kernel⟩, ⟨bkS 0xFFFFFFFF (-2 ^ 39), _, bkF, atSlot (by decide +kernel), by decide +kernel⟩,
   ⟨bkS 4096 0, _, bkF, atSlot (by decide +kernel), by decide +kernel⟩⟩

/-! ## System acts -/

def readB (P : State → List Byte → Bool) (x : State × (Tr ⊕ List Byte)) : Bool :=
  match x.2 with
  | .inr b => P x.1 b
  | .inl _ => false
theorem readOf {x : State × (Tr ⊕ List Byte)} (P : State → List Byte → Prop) [∀ s b, Decidable (P s b)] (h : readB (fun s b => decide (P s b)) x = true) :
    ∃ s b, x = (s, .inr b) ∧ P s b := by
  obtain ⟨s, y⟩ := x
  cases y with
  | inl t => cases h
  | inr b => exact ⟨s, b, rfl, of_decide_eq_true h⟩

def oneActB (s : State) (i : Instr) (l : Nat) : Bool :=
  atSlotB s i && decide ((slotOf s i).lanes = [l] ∧ ∀ a ∈ s.ctl.acts, a.gid = (slotOf s i).gid → a.entry = (slotOf s i).entry → a.lane ≠ l)
theorem oneAct {s : State} {i : Instr} {l : Nat} (h : oneActB s i l = true) : Sys2Proof.OneAct s i (slotOf s i) l := by
  simp only [oneActB, Bool.and_eq_true, decide_eq_true_eq] at h
  exact ⟨atSlot h.1, h.2.1, h.2.2⟩

/-- A placement record: authority, flags, second stage root, save area of 16 units, image and its size. -/
def placeB (auth flags s2 img imgSize : Nat) : List Byte :=
  bytesOfNat 1 auth ++ bytesOfNat 7 flags ++ bytesOfNat 8 s2 ++ bytesOfNat 8 0x8000 ++ bytesOfNat 4 16 ++ bytesOfNat 4 0 ++ bytesOfNat 8 0 ++ bytesOfNat 8 img ++ bytesOfNat 4 imgSize ++
    bytesOfNat 12 0
/-- The header of an image of kind 0 that needs the feature blocks `live`. -/
def imgHdr (live : Nat) : List Byte := bytesOfNat 8 0x0000000153394349 ++ bytesOfNat 32 0 ++ bytesOfNat 4 live ++ bytesOfNat 212 0
/-- The record at 0x8000, the header at 0x9000; the operator is that of partition 0. -/
def actS (rec : List Byte) (i : Instr) : State :=
  (setM 0x9000 256 (natOfBytes (imgHdr 0)) (setM 0x8000 64 (natOfBytes rec) (setSs 4 [0x8000, 0] (stand i)))).updCtx 16 (fun c => { c with part := 0 })

abbrev Placed (s s1 : State) (k : SlotCtx) (f : YForm) (l : Nat) (b : List Byte) : Prop :=
  k.rd64 s f.src l % 64 = 0 ∧ k.rd64 s f.src l < 2 ^ 56 ∧ readVirt (entered s k) k.who k.core k.ctx (k.rd64 s f.src l) 64 .read = (s1, .inr b)
abbrev NewShell (s : State) (k : SlotCtx) (b : List Byte) (n : Nat) : Prop :=
  n < 4096 ∧ s.liveCtx n = false ∧ (∀ m < n, s.liveCtx m = true) ∧ recClusters b &&& ~~~partClusters s (s.getCtx k.ctx).part = 0 ∧ keyQuota s (s.getCtx k.ctx).part ≠ 0

theorem placed (i : Instr) (f : YForm) (rec : List Byte) (P : State → List Byte → Prop) [∀ s b, Decidable (P s b)]
    (h0 : ((slotOf (actS rec i) i).rd64 (actS rec i) f.src 0 % 64 == 0 && decide ((slotOf (actS rec i) i).rd64 (actS rec i) f.src 0 < 2 ^ 56)) = true)
    (h : readB (fun s b => decide (P s b)) (readVirt (entered (actS rec i) (slotOf (actS rec i) i)) (slotOf (actS rec i) i).who (slotOf (actS rec i) i).core (slotOf (actS rec i) i).ctx
        ((slotOf (actS rec i) i).rd64 (actS rec i) f.src 0) 64 .read) = true) :
    ∃ s1 b, Placed (actS rec i) s1 (slotOf (actS rec i) i) f 0 b ∧ P s1 b := by
  obtain ⟨s1, b, e, p⟩ := readOf P h
  simp only [Bool.and_eq_true, beq_iff_eq, decide_eq_true_eq] at h0
  exact ⟨s1, b, ⟨h0.1, h0.2, e⟩, p⟩

theorem witness_Placement :
    (∃ s s1 k f l b, Placed s s1 k f l b ∧ Sys2Proof.OneAct s (.place f) k l ∧ leAt b 1 1 % 2 = 0 ∧ leAt b 0 1 = 1) ∧
    (∃ s s1 k f l b o, Placed s s1 k f l b ∧ Sys2Proof.OneAct s (.place f) k l ∧ leAt b 1 1 % 2 = 0 ∧ leAt b 0 1 ≠ 1 ∧ placeBad b false = some o) ∧
    (∃ s s1 k f l b n, Placed s s1 k f l b ∧ Sys2Proof.OneAct s (.place f) k l ∧ leAt b 1 1 % 2 = 0 ∧ leAt b 0 1 = 2 ∧ placeBad b false = none ∧ NewShell s1 k b n) ∧
    ∃ s s1 s2 k f l b h n, Placed s s1 k f l b ∧ Sys2Proof.OneAct s (.placeRestore f) k l ∧ leAt b 1 1 % 2 = 0 ∧ leAt b 0 1 ≠ 1 ∧ placeBad b true = none ∧
      leAt b 40 8 < 2 ^ 56 ∧ readVirt s1 k.who k.core k.ctx (leAt b 40 8) 256 .read = (s2, .inr h) ∧ headerKnown h = true ∧ missingBlock s2 h = none ∧ NewShell s2 k b n := by
  refine ⟨?_, ?_, ?_, ?_⟩
  · obtain ⟨s1, b, e, p⟩ := placed (.place yf) yf (placeB 1 0 0 0 0) (fun _ b => leAt b 1 1 % 2 = 0 ∧ leAt b 0 1 = 1) (by decide +kernel) (by decide +kernel)
    exact ⟨_, s1, _, yf, 0, b, e, oneAct (by decide +kernel), p⟩
  · obtain ⟨s1, b, e, p⟩ := placed (.place yf) yf (placeB 2 0 (2 ^ 52) 0 0) (fun _ b => leAt b 1 1 % 2 = 0 ∧ leAt b 0 1 ≠ 1 ∧ placeBad b false = some 8) (by decide +kernel) (by decide +kernel)
    exact ⟨_, s1, _, yf, 0, b, 8, e, oneAct (by decide +kernel), p⟩
  · obtain ⟨s1, b, e, p⟩ := placed (.place yf) yf (placeB 2 0 0x30000 0 0)
      (fun s b => leAt b 1 1 % 2 = 0 ∧ leAt b 0 1 = 2 ∧ placeBad b false = none ∧ NewShell s (slotOf (actS (placeB 2 0 0x30000 0 0) (.place yf)) (.place yf)) b 0) (by decide +kernel) (by decide +kernel)
    exact ⟨_, s1, _, yf, 0, b, 0, e, oneAct (by decide +kernel), p⟩
  · let i : Instr := .placeRestore yf
    let rec' := placeB 2 0 0x30000 0x9000 8
    let k := slotOf (actS rec' i) i
    obtain ⟨s1, b, e, p⟩ := placed i yf rec'
      (fun s b => (leAt b 1 1 % 2 = 0 ∧ leAt b 0 1 ≠ 1 ∧ placeBad b true = none ∧ leAt b 40 8 < 2 ^ 56) ∧
        readB (fun s h => decide (headerKnown h = true ∧ missingBlock s h = none ∧ NewShell s k b 0)) (readVirt s k.who k.core k.ctx (leAt b 40 8) 256 .read) = true)
      (by decide +kernel) (by decide +kernel)
    obtain ⟨s2, h, e2, q⟩ := readOf (x := readVirt s1 k.who k.core k.ctx (leAt b 40 8) 256 .read)
      (fun s h => headerKnown h = true ∧ missingBlock s h = none ∧ NewShell s k b 0) p.2
    exact ⟨_, s1, s2, k, yf, 0, b, h, 0, e, oneAct (by decide +kernel), p.1.1, p.1.2.1, p.1.2.2.1, p.1.2.2.2, e2, q⟩

/-! ### Images -/

theorem chunksFor_min (a b : Nat) : chunksFor (min a b) ≤ chunksFor b :=
  Nat.div_le_div_right (Nat.add_le_add_right (Nat.min_le_right a b) 4095)
/-- No image has more chunks than its bounds take. -/
theorem chunks_le (s : State) (ctx id : Nat) : chunkCount (sectionLens s ctx id) ≤ chunkCount ((List.range 10).map (sectionBound s ctx)) := by
  have h (i : Nat) := chunksFor_min (Config.sectionLen id i) (sectionBound s ctx i)
  have := h 0; have := h 1; have := h 2; have := h 3; have := h 4; have := h 5; have := h 6; have := h 7; have := h 8; have := h 9
  simp only [sectionLens, chunkCount, sumOf, show List.range 10 = [0, 1, 2, 3, 4, 5, 6, 7, 8, 9] from rfl, List.map_cons, List.map_nil, List.foldl_cons, List.foldl_nil, Nat.zero_add]
  omega

/-- A buffer of 32 units at 0x8000 takes the image of a context without groups. -/
theorem planned {s : State} {ctx op extra : Nat} (hc : chunkCount ((List.range 10).map (sectionBound s ctx)) + extra ≤ 20)
    (hr : isOkXlate (translateRaw s controlCore op 0x8000 .write).2 = true) :
    ∃ s1 p, planSeal s ctx op 0x8000 32 extra = .inr (s1, p) := by
  have hb : imageBytes (chunkCount (sectionLens s ctx s.nextId) + extra) ≤ 256 + 4112 * 20 := by
    have := chunks_le s ctx s.nextId
    simp only [imageBytes]; omega
  obtain ⟨pa, ip, hr⟩ := xlateOf hr
  have h0 : 256 ≤ imageBytes (chunkCount (sectionLens s ctx s.nextId) + extra) := by simp only [imageBytes]; omega
  have hf : bufferFits s op 0x8000 32 (imageBytes (chunkCount (sectionLens s ctx s.nextId) + extra)) = true := by
    generalize imageBytes (chunkCount (sectionLens s ctx s.nextId) + extra) = n at hb h0
    have e : (0x8000 + n - 1) / 131072 - 0x8000 / 131072 + 1 = 1 := by omega
    have hp : pagesOf 0x8000 n = [(0x8000, 1)] := by
      simp only [pagesOf, show n ≠ 0 by omega, if_false, e]
      rfl
    simp only [bufferFits, bufferReach, hp, List.all_cons, List.all_nil, Bool.and_true, hr, Bool.and_eq_true, decide_eq_true_eq]
    omega
  exact ⟨{ s with nextId := s.nextId + 1 }, ⟨s.nextId, sectionLens s ctx s.nextId, op, 0x8000⟩, by simp only [planSeal, hf, if_true]⟩

/-- Another context of the operator's partition, with its save area. -/
def other (run : Nat) : Ctx := { ctxB 17 2 0 run with saveBase := 0x8000, saveSize := 32 }
def evF : YForm := { yf with src := .scalar 6 }
/-- S6 names it; S7 to S9 name the buffer. -/
def evS (c : Ctx) (n : Nat) (i : Instr) : State := withCtx c (setSs 6 [n, 0x8000, 0, 32] (actS (placeB 0 0 0 0 0) i))

/-- An act of lane 0 is under way. -/
def actN (w : Option Word) (i : Instr) : State := let s := evS (other 1) 17 i; { s with ctl := { s.ctl with acts := [⟨1, 0, 0, 17, w⟩] } }
def evdF : YForm := { yf with src := .scalar 10 }
def withSeal (s : State) : State := { s with ctl := { s.ctl with seals := [⟨0, none, 0⟩] } }
def kbF : YForm := { yf with src := .scalar 6 }
/-- The operator has a key slot. -/
def keyS : State :=
  let s := (setSs 6 [17, 1] (evS (other 0) 17 (.keybind kbF))).updCtx 16 (fun c => { c with keySlot := some 3 })
  { s with ctl := { s.ctl with keySlots := [⟨3, 9, 5, 1, 0, 0⟩] } }

theorem witness_EvictionsAndKeys :
    (∀ i ∈ ([.evict evF, .evictDestroy evF, .evictSeal evF, .keybind { evF with src := .scalar 12 }] : List Instr), ∃ (s : State) (k : SlotCtx) (l : Nat), Sys2Proof.OneAct s i k l ∧
      (entered s k).ctx? (k.word s (.scalar 6) l 0).toNat = none ∧ (entered s k).ctx? (k.word s (.scalar 12) l 0).toNat = none ∧ (k.word s (.scalar 12) l 1).toNat < 2) ∧
    (∃ (s : State) (k : SlotCtx) (f : YForm) (l : Nat) (c : Ctx), Sys2Proof.OneAct s (.evictDestroy f) k l ∧ (k.word s f.src l 0).toNat = c.num ∧ s.ctx? c.num = some c ∧
      c.part = (s.getCtx k.ctx).part ∧ c.auth ≠ 1 ∧ c.run < 7 ∧ c.num ≠ k.ctx ∧ actBusy s c.num = false) ∧
    (∀ i ∈ ([.evict evF, .evictSeal evF] : List Instr), ∃ (s : State) (k : SlotCtx) (l : Nat) (c : Ctx), Sys2Proof.OneAct s i k l ∧ (k.word s evF.src l 0).toNat = c.num ∧
      (entered s k).ctx? c.num = some c ∧ c.part = ((entered s k).getCtx k.ctx).part ∧ c.auth ≠ 1 ∧ c.run = 2 ∧ c.gang = false ∧ actBusy s c.num = false ∧ s.ctl.seals.length < 4096 ∧
      c.saveBase = 0x8000 ∧ c.saveSize = 32 ∧ (k.word s evF.src l 1).toNat + (k.word s evF.src l 2).toNat * 2 ^ 32 = 0x8000 ∧ (k.word s evF.src l 3).toNat = 32 ∧
      ∃ s1 p, planSeal (entered s k) c.num k.ctx 0x8000 32 0 = .inr (s1, p)) ∧
    (∃ (s : State) (k : SlotCtx) (f : YForm) (l : Nat) (a : Machine.Act), AtSlot s (.place f) k ∧ k.lanes = [l] ∧
      s.ctl.acts.find? (fun x => x.gid == k.gid && x.entry == k.entry && x.lane == l) = some a ∧ a.done = none) ∧
    (∃ (s : State) (k : SlotCtx) (f : YForm) (l : Nat) (a : Machine.Act) (w : Word), AtSlot s (.gswitchRestore f) k ∧ k.lanes = [l] ∧
      s.ctl.acts.find? (fun x => x.gid == k.gid && x.entry == k.entry && x.lane == l) = some a ∧ a.done = some w) ∧
    (∃ s s1 k f l h, Sys2Proof.OneAct s (.evictDiscard f) k l ∧ k.rd64 s f.src l < 2 ^ 56 ∧
      readVirt (entered s k) k.who k.core k.ctx (k.rd64 s f.src l) 256 .read = (s1, .inr h) ∧ s1.ctl.seals = []) ∧
    (∃ s s1 k f l h, Sys2Proof.OneAct s (.evictDiscard f) k l ∧ k.rd64 s f.src l < 2 ^ 56 ∧
      readVirt (entered s k) k.who k.core k.ctx (k.rd64 s f.src l) 256 .read = (s1, .inr h) ∧ leAt h 16 4 = s1.boot.cfg.inst ∧
      ∃ e ∈ s1.ctl.seals, e.ctrbase = leAt h 24 8 ∧ e.part = (s1.getCtx k.ctx).part) ∧
    ∃ (s : State) (k : SlotCtx) (f : YForm) (l : Nat) (c : Ctx) (ks : KeySlot), Sys2Proof.OneAct s (.keybind f) k l ∧ (k.word s f.src l 0).toNat = c.num ∧
      (k.word s f.src l 1).toNat < 2 ∧ (entered s k).ctx? c.num = some c ∧ c.part = ((entered s k).getCtx k.ctx).part ∧ c.auth = 2 ∧ c.claimed = false ∧ c.run ≠ 7 ∧ c.image = none ∧
      actBusy s c.num = false ∧ ((entered s k).getCtx k.ctx).keySlot = some ks.slot ∧ s.keySlot? ks.slot = some ks ∧ (c.tenant = 0 ∨ c.tenant = ks.tenant) := by
  refine ⟨?_, ⟨evS (other 1) 17 (.evictDestroy evF), slotOf (evS (other 1) 17 (.evictDestroy evF)) (.evictDestroy evF), evF, 0, other 1, oneAct (by decide +kernel), by decide +kernel⟩, ?_,
    ⟨actN none (.place yf), _, yf, 0, ⟨1, 0, 0, 17, none⟩, atSlot (by decide +kernel), by decide +kernel⟩,
    ⟨actN (some 5) (.gswitchRestore yf), _, yf, 0, ⟨1, 0, 0, 17, some 5⟩, 5, atSlot (by decide +kernel), by decide +kernel⟩, ?_, ?_,
    ⟨keyS, slotOf keyS (.keybind kbF), kbF, 0, other 0, ⟨3, 9, 5, 1, 0, 0⟩, oneAct (by decide +kernel), by decide +kernel⟩⟩
  · have h : ∀ i ∈ ([.evict evF, .evictDestroy evF, .evictSeal evF, .keybind { evF with src := .scalar 12 }] : List Instr), oneActB (evS (other 1) 4094 i) i 0 = true ∧
        (entered (evS (other 1) 4094 i) (slotOf (evS (other 1) 4094 i) i)).ctx? ((slotOf (evS (other 1) 4094 i) i).word (evS (other 1) 4094 i) (.scalar 6) 0 0).toNat = none ∧
        (entered (evS (other 1) 4094 i) (slotOf (evS (other 1) 4094 i) i)).ctx? ((slotOf (evS (other 1) 4094 i) i).word (evS (other 1) 4094 i) (.scalar 12) 0 0).toNat = none ∧
        ((slotOf (evS (other 1) 4094 i) i).word (evS (other 1) 4094 i) (.scalar 12) 0 1).toNat < 2 := by decide +kernel
    exact fun i hi => ⟨_, _, 0, oneAct (h i hi).1, (h i hi).2⟩
  · have h : ∀ i ∈ ([.evict evF, .evictSeal evF] : List Instr), let s := evS (other 2) 17 i
        let k := slotOf s i
        oneActB s i 0 = true ∧ (k.word s evF.src 0 0).toNat = 17 ∧ (entered s k).ctx? 17 = some (other 2) ∧ 0 = ((entered s k).getCtx k.ctx).part ∧ actBusy s 17 = false ∧
        s.ctl.seals.length < 4096 ∧ (k.word s evF.src 0 1).toNat + (k.word s evF.src 0 2).toNat * 2 ^ 32 = 0x8000 ∧ (k.word s evF.src 0 3).toNat = 32 ∧
        chunkCount ((List.range 10).map (sectionBound (entered s k) 17)) + 0 ≤ 20 ∧ isOkXlate (translateRaw (entered s k) controlCore k.ctx 0x8000 .write).2 = true := by decide +kernel
    exact fun i hi => have g := h i hi
      ⟨_, _, 0, other 2, oneAct g.1, g.2.1, g.2.2.1, g.2.2.2.1, by decide, rfl, rfl, g.2.2.2.2.1, g.2.2.2.2.2.1, rfl, rfl, g.2.2.2.2.2.2.1, g.2.2.2.2.2.2.2.1,
        planned g.2.2.2.2.2.2.2.2.1 g.2.2.2.2.2.2.2.2.2⟩
  · let s := evS (other 1) 0x9000 (.evictDiscard evdF)
    let k := slotOf s (.evictDiscard evdF)
    obtain ⟨s1, h, e, q⟩ := readOf (x := readVirt (entered s k) k.who k.core k.ctx (k.rd64 s evdF.src 0) 256 .read) (fun s _ => s.ctl.seals = []) (by decide +kernel)
    exact ⟨s, s1, k, evdF, 0, h, oneAct (by decide +kernel), by decide +kernel, e, q⟩
  · let s := withSeal (evS (other 1) 0x9000 (.evictDiscard evdF))
    let k := slotOf s (.evictDiscard evdF)
    obtain ⟨s1, h, e, q⟩ := readOf (x := readVirt (entered s k) k.who k.core k.ctx (k.rd64 s evdF.src 0) 256 .read)
      (fun s h => leAt h 16 4 = s.boot.cfg.inst ∧ ∃ e ∈ s.ctl.seals, e.ctrbase = leAt h 24 8 ∧ e.part = (s.getCtx k.ctx).part) (by decide +kernel)
    exact ⟨s, s1, k, evdF, 0, h, oneAct (by decide +kernel), by decide +kernel, e, q⟩

/-! ## Gang switches -/

/-- A core's cached translations map page 0 of a context onto frame 0. -/
structure Page0 (s : State) (core ctx : Nat) : Prop where
  st : s.vis.stalls = []
  one : s.vis.tlb.find? (fun t => t.core == core && t.ctx == ctx && !t.stage2 && t.page == 0) = some ⟨core, ctx, false, 0, 0, 7, 0⟩
  two : s.vis.tlb.find? (fun t => t.core == core && t.ctx == ctx && t.stage2 && t.page == 0) = some ⟨core, ctx, true, 0, 0, 7, ctx⟩

theorem Page0.translate {s : State} {core ctx : Nat} (h : Page0 s core ctx) (who : Agent) {va : Nat} (hv : va < 131072) :
    translate s who core ctx va .read = (s, .ok va 0) := by
  have hq : va / 131072 = 0 := Nat.div_eq_of_lt hv
  have hm : va % 131072 = va := Nat.mod_eq_of_lt hv
  have hs : ({ s with vis := { s.vis with stalls := s.vis.stalls.filter (fun x => x.who != who) } } : State) = s := by rw [h.st]; exact congrArg (fun x => { s with vis := { s.vis with stalls := x } }) h.st.symm
  have h1 : stage1 s core ctx va .read = (s, .inr va) := by
    simp only [stage1, hq, h.one, hm]
    simp [Access.need]
  have h2 : stage2 s core ctx va .read = (s, .ok va) := by
    simp only [stage2, hq, h.two, hm]
    simp [Access.need]
  simp only [Machine.translate, stallStands, h.st, List.find?_nil, Option.map_none]
  rw [show ({ s with vis := { s.vis with stalls := ([] : List Stall).filter (fun x => x.who != who) } } : State) = s by rw [← h.st]; exact hs]
  simp only [translateRaw, h1, h2, hq]

theorem rdBytes_add (s : State) (a k n : Nat) : s.rdBytes a (k + n) = s.rdBytes a k ++ s.rdBytes (a + k) n := by
  simp only [State.rdBytes, List.range_add, List.map_append, List.map_map]
  congr 1
  exact List.map_congr_left (fun i _ => by simp [Nat.add_assoc])

theorem Page0.all {s : State} {core ctx : Nat} (h : Page0 s core ctx) (who : Agent) : ∀ (fuel va n : Nat), va + n ≤ 131072 → n + va % 64 < 64 * fuel →
    ∃ l, translateAll who core ctx .read (chunks fuel va n) s = (s, .inr l) ∧ l.foldr (fun e acc => s.rdBytes e.1 e.2.1 ++ acc) [] = s.rdBytes va n
  | 0, _, _, _, hf => by omega
  | fuel + 1, va, n, hv, hf => by
    by_cases h0 : n = 0
    · exact ⟨[], by simp [chunks, h0, translateAll], by simp [h0, State.rdBytes]⟩
    by_cases h1 : n ≤ 64 - va % 64
    · exact ⟨[(va, n, 0)], by simp [chunks, h0, h1, translateAll, h.translate who (show va < 131072 by omega)], by simp⟩
    · obtain ⟨l, e1, e2⟩ := h.all who fuel (va + (64 - va % 64)) (n - (64 - va % 64)) (by omega) (by omega)
      refine ⟨(va, 64 - va % 64, 0) :: l, by simp [chunks, h0, h1, translateAll, h.translate who (show va < 131072 by omega), e1], ?_⟩
      have := rdBytes_add s va (64 - va % 64) (n - (64 - va % 64))
      rw [show (64 - va % 64) + (n - (64 - va % 64)) = n by omega] at this
      rw [List.foldr_cons, e2, this]

theorem Page0.read {s : State} {core ctx : Nat} (h : Page0 s core ctx) (who : Agent) {va n : Nat} (hv : va + n ≤ 131072) :
    readVirt s who core ctx va n .read = (s, .inr (s.rdBytes va n)) := by
  obtain ⟨l, e1, e2⟩ := h.all who (n / 64 + 2) va n hv (by omega)
  simp only [readVirt, e1, e2]

theorem get_bytesAt : ∀ (l : List Byte) (a i : Nat), SMap.get? (bytesAt a l) (a + i) = l[i]?
  | [], _, _ => rfl
  | b :: bs, a, 0 => by simp [bytesAt, SMap.get?]
  | b :: bs, a, i + 1 => by
    have := get_bytesAt bs (a + 1) i
    simp only [bytesAt, SMap.get?, show ¬ a + (i + 1) = a by omega, if_false, List.getElem?_cons_succ]
    rw [show a + (i + 1) = a + 1 + i by omega, this]

/-- Bytes in the middle of what memory holds. -/
theorem rdBytes_mid {s : State} {a : Nat} {pre x post : List Byte} (h : s.mem = bytesAt a (pre ++ (x ++ post))) : s.rdBytes (a + pre.length) x.length = x := by
  apply List.ext_getElem
  · simp [State.rdBytes]
  · intro i h1 h2
    simp only [State.rdBytes, List.getElem_map, List.getElem_range, State.rdByte, SMap.get, h, Nat.add_assoc, get_bytesAt]
    simp [List.getElem?_append, h2, show ¬ pre.length + i < pre.length by omega]

/-- A switch record. -/
def swRec (window image imgSize clearing windfall : Nat) : List Byte :=
  bytesOfNat 8 17 ++ bytesOfNat 8 window ++ bytesOfNat 8 image ++ bytesOfNat 4 imgSize ++ bytesOfNat 4 3086 ++ bytesOfNat 8 clearing ++ bytesOfNat 8 windfall ++ bytesOfNat 4 3086 ++
    bytesOfNat 12 0
def gangC (run : Nat) : Ctx := { ctxB 17 2 0 run with gang := true, gangSize := 2, jobTag := 7 }
/-- The record at 0x8000; 98 pages that the device reaches. -/
def gsS (window : Nat) (i : Instr) : State :=
  let s := withCtx (gangC 2) (actS (swRec window 0x8000 32 0x100000 0x100000) i)
  { s with vis := { s.vis with tlb := ⟨999, 16, true, 0, 0, 7, 16⟩ :: ((List.range 98).map (fun n => ⟨999, 16, false, n + 8, 0, 7, 0⟩)) } }

/-- The header of a gang image for tenant 9. -/
def gHdr : List Byte := bytesOfNat 8 0x0002000153394349 ++ bytesOfNat 8 9 ++ bytesOfNat 240 0
def gRec : List Byte := swRec 1 0x1040 1 0x1140 0x2150
def gImage : Image := { (default : Image) with id := 5, kind := 2, tenant := 9, key := 77, header := gHdr }
def gArea (n : Nat) : List Byte := sealedBytes 5 (areaBase n) 4112
def gC : Ctx := { gangC 6 with keySlot := some 3 }
/-- From 0x1000: the record, the header, the clearing and the windfall as they were sealed. -/
def gS : State :=
  let s := setSs 4 [0x1000, 0] ((stand (.gswitchRestore yf)).updCtx 16 (fun c => { c with part := 0 }))
  { s with mem := bytesAt 0x1000 (gRec ++ (gHdr ++ (gArea 1 ++ gArea 2))), ctxs := s.ctxs ++ [gC], vault := [gImage], ctl := { s.ctl with keySlots := [⟨3, 9, 77, 1, 0, 0⟩] },
           vis := { s.vis with tlb := [⟨0, 16, false, 0, 0, 7, 0⟩, ⟨0, 16, true, 0, 0, 7, 16⟩, ⟨999, 16, false, 0, 0, 7, 0⟩, ⟨999, 16, true, 0, 0, 7, 16⟩] } }
def gK : SlotCtx := slotOf gS (.gswitchRestore yf)

theorem gArea_length (n : Nat) : (gArea n).length = 4112 := by simp [gArea, sealedBytes]

theorem entered_mem (s : State) (k : SlotCtx) : (entered s k).mem = s.mem := by
  unfold entered markCounted
  cases k.u <;> simp only [] <;> split <;> rfl

theorem gS_mem : (entered gS gK).mem = bytesAt 0x1000 (gRec ++ (gHdr ++ (gArea 1 ++ gArea 2))) := by
  rw [entered_mem]; rfl

theorem gImage_ok : gangImage (entered gS gK) gK gC (SwitchRec.ofBytes gRec) = .inr gImage := by
  have hp : Page0 (entered gS gK) controlCore gK.ctx := ⟨by decide +kernel, by decide +kernel, by decide +kernel⟩
  have hm := gS_mem
  have rd (a n : Nat) (h : a + n ≤ 131072) : bufferRead (entered gS gK) gK.ctx a n = some ((entered gS gK).rdBytes a n) := by
    simp only [bufferRead, hp.read _ h]
  have r1 : (entered gS gK).rdBytes 0x1040 256 = gHdr := by
    have := rdBytes_mid (s := entered gS gK) (a := 0x1000) (pre := gRec) (x := gHdr) hm
    rwa [show gHdr.length = 256 by decide +kernel, show 0x1000 + gRec.length = 0x1040 by decide +kernel] at this
  have r2 : (entered gS gK).rdBytes 0x1140 4112 = gArea 1 := by
    have := rdBytes_mid (s := entered gS gK) (a := 0x1000) (pre := gRec ++ gHdr) (x := gArea 1) (post := gArea 2) (by rw [hm, List.append_assoc])
    rwa [gArea_length, show 0x1000 + (gRec ++ gHdr).length = 0x1140 by decide +kernel] at this
  have r3 : (entered gS gK).rdBytes 0x2150 4112 = gArea 2 := by
    have := rdBytes_mid (s := entered gS gK) (a := 0x1000) (pre := gRec ++ (gHdr ++ gArea 1)) (x := gArea 2) (post := []) (by rw [hm, List.append_nil, List.append_assoc, List.append_assoc])
    rwa [gArea_length, show 0x1000 + (gRec ++ (gHdr ++ gArea 1)).length = 0x2150 by simp only [List.length_append, gArea_length]; decide +kernel] at this
  have e0 : (entered gS gK).rdBytes 0x1140 0 = [] := rfl
  have hv : (entered gS gK).vault.find? (fun im => im.header == gHdr) = some gImage := by decide +kernel
  have hi : SwitchRec.ofBytes gRec = ⟨17, 1, 0x1040, 1, 3086, 0x1140, 0x2150, 3086⟩ := by
    simp only [SwitchRec.ofBytes, SwitchRec.mk.injEq]
    decide +kernel
  have ha : 4112 * areaChunks [] = 4112 := by decide +kernel
  have hc : gImage.chunks = 0 ∧ gImage.clr = [] ∧ gImage.wf = [] ∧ gImage.kind = 2 ∧ gImage.id = 5 ∧ gImage.fabinc = false := ⟨rfl, rfl, rfl, rfl, rfl, rfl⟩
  have hb : headerKnown gHdr = true ∧ leAt gHdr 8 8 = tenantOf (entered gS gK) gC ∧ missingBlock (entered gS gK) gHdr = none ∧ gImage.key = Machine.keyOf (entered gS gK) gC ∧ gC.run = 6 := by
    decide +kernel
  have t1 : sealedAt (entered gS gK) gK.ctx 0x1140 5 (areaBase 1) 4112 = true := by simp only [sealedAt, rd _ _ (show 0x1140 + 4112 ≤ 131072 by decide), r2]; exact beq_self_eq_true _
  have t2 : sealedAt (entered gS gK) gK.ctx 0x2150 5 (areaBase 2) 4112 = true := by simp only [sealedAt, rd _ _ (show 0x2150 + 4112 ≤ 131072 by decide), r3]; exact beq_self_eq_true _
  have t0 : tagsOk (entered gS gK) gK.ctx 0x1040 1 gImage (Machine.keyOf (entered gS gK) gC) = true := by
    simp only [tagsOk, hc.1, ← hb.2.2.2.1, sealedAt, Nat.mul_zero, rd _ _ (show 0x1040 + 256 + 0 ≤ 131072 by decide)]
    decide
  simp only [gangImage, hi, rd _ _ (show 0x1040 + 256 ≤ 131072 by decide), r1, imageAt, hv, hb.1, ← hb.2.1, hb.2.2.1, hc.2.1, hc.2.2.1, hc.2.2.2.1, hc.2.2.2.2.1, hc.2.2.2.2.2, ha, t0, t1, t2]
  rfl

abbrev Switching (s s1 : State) (k : SlotCtx) (f : YForm) (l : Nat) (b : List Byte) (c : Ctx) : Prop :=
  k.rd64 s f.src l % 64 = 0 ∧ k.rd64 s f.src l < 2 ^ 56 ∧ readVirt (entered s k) k.who k.core k.ctx (k.rd64 s f.src l) 64 .read = (s1, .inr b) ∧
    switchBad b = none ∧ s1.ctx? (leAt b 0 4) = some c ∧ c.part = (s1.getCtx k.ctx).part ∧ actBusy s1 c.num = false ∧ c.num = leAt b 0 4

theorem switching (window : Nat) (P : State → List Byte → Prop) [∀ s b, Decidable (P s b)]
    (h0 : (slotOf (gsS window (.gswitchSave yf)) (.gswitchSave yf)).rd64 (gsS window (.gswitchSave yf)) yf.src 0 = 0x8000)
    (h : readB (fun s b => decide ((switchBad b = none ∧ s.ctx? (leAt b 0 4) = some (gangC 2) ∧ 0 = (s.getCtx (slotOf (gsS window (.gswitchSave yf)) (.gswitchSave yf)).ctx).part ∧
        actBusy s 17 = false ∧ 17 = leAt b 0 4) ∧ P s b))
      (readVirt (entered (gsS window (.gswitchSave yf)) (slotOf (gsS window (.gswitchSave yf)) (.gswitchSave yf))) (slotOf (gsS window (.gswitchSave yf)) (.gswitchSave yf)).who
        (slotOf (gsS window (.gswitchSave yf)) (.gswitchSave yf)).core (slotOf (gsS window (.gswitchSave yf)) (.gswitchSave yf)).ctx 0x8000 64 .read) = true) :
    ∃ s1 b, Switching (gsS window (.gswitchSave yf)) s1 (slotOf (gsS window (.gswitchSave yf)) (.gswitchSave yf)) yf 0 b (gangC 2) ∧ P s1 b := by
  obtain ⟨s1, b, e, p⟩ := readOf _ h
  exact ⟨s1, b, ⟨by rw [h0], by rw [h0]; decide, by rw [h0]; exact e, p.1.1, p.1.2.1, p.1.2.2.1, p.1.2.2.2.1, p.1.2.2.2.2⟩, p.2⟩

theorem witness_GangSwitchIssue :
    (∃ s s1 k f l b c, Switching s s1 k f l b c ∧ s1.now < leAt b 8 8 * 1024 ∧ Sys2Proof.OneAct s (.gswitchSave f) k l ∧ c.gang = true ∧ c.run = 2 ∧ c.leave = none ∧
      bufferReach s1 k.ctx (leAt b 32 8) (leAt b 28 4 * 4096) = true ∧ bufferReach s1 k.ctx (leAt b 40 8) (leAt b 48 4 * 4096) = true ∧
      ∃ s2 p, planSeal s1 c.num k.ctx (leAt b 16 8) (leAt b 24 4) 1 = .inr (s2, p)) ∧
    (∃ s s1 k f l b c im, Switching s s1 k f l b c ∧ s1.now < leAt b 8 8 * 1024 ∧ Sys2Proof.OneAct s (.gswitchRestore f) k l ∧ c.run = 6 ∧
      gangImage s1 k c (SwitchRec.ofBytes b) = .inr im) ∧
    ∃ s s1 k f l b c, Switching s s1 k f l b c ∧ leAt b 8 8 * 1024 ≤ s1.now ∧ Sys2Proof.OneAct s (.gswitchSave f) k l ∧ c.gang = true ∧ c.run = 2 ∧ c.leave = none := by
  refine ⟨?_, ?_, ?_⟩
  · obtain ⟨s1, b, e, p⟩ := switching 1 (fun s b => s.now < leAt b 8 8 * 1024 ∧ bufferReach s 16 (leAt b 32 8) (leAt b 28 4 * 4096) = true ∧
      bufferReach s 16 (leAt b 40 8) (leAt b 48 4 * 4096) = true ∧ leAt b 16 8 = 0x8000 ∧ leAt b 24 4 = 32 ∧
      chunkCount ((List.range 10).map (sectionBound s 17)) + 1 ≤ 20 ∧ isOkXlate (translateRaw s controlCore 16 0x8000 .write).2 = true) (by decide +kernel) (by decide +kernel)
    have hk : (slotOf (gsS 1 (.gswitchSave yf)) (.gswitchSave yf)).ctx = 16 := by decide +kernel
    refine ⟨_, s1, _, yf, 0, b, gangC 2, e, p.1, oneAct (by decide +kernel), rfl, rfl, rfl, ?_⟩
    rw [hk]
    obtain ⟨s2, q, h⟩ := planned p.2.2.2.2.2.1 p.2.2.2.2.2.2
    exact ⟨p.2.1, p.2.2.1, s2, q, by rw [p.2.2.2.1, p.2.2.2.2.1]; exact h⟩
  · have hp : Page0 (entered gS gK) gK.core gK.ctx := ⟨by decide +kernel, by decide +kernel, by decide +kernel⟩
    have ha : gK.rd64 gS yf.src 0 = 0x1000 := by decide +kernel
    have hr : (entered gS gK).rdBytes 0x1000 64 = gRec := rdBytes_mid (s := entered gS gK) (a := 0x1000) (pre := []) (x := gRec) (post := gHdr ++ (gArea 1 ++ gArea 2)) gS_mem
    exact ⟨gS, entered gS gK, gK, yf, 0, gRec, gC, gImage, ⟨by rw [ha], by rw [ha]; decide, by rw [ha, hp.read _ (by decide), hr], by decide +kernel, by decide +kernel, by decide +kernel,
      by decide +kernel, by decide +kernel⟩, by decide +kernel, oneAct (by decide +kernel), rfl, gImage_ok⟩
  · obtain ⟨s1, b, e, p⟩ := switching 0 (fun s b => leAt b 8 8 * 1024 ≤ s.now) (by decide +kernel) (by decide +kernel)
    exact ⟨_, s1, _, yf, 0, b, gangC 2, e, p, oneAct (by decide +kernel), rfl, rfl, rfl⟩

/-! ## Events of registers, eviction and the fabric -/

def base : State := stand (.mov vf)
def opBase : State := withCtx (other 1) ((stand (.evict yf)).updCtx 16 (fun c => { c with part := 0 }))
def isLeaf (w : Walk) : Bool := match w with | .leaf _ _ _ => true | _ => false
theorem leafOf {w : Walk} (h : isLeaf w = true) : ∃ pa x y, w = .leaf pa x y := by
  cases w <;> first | exact ⟨_, _, _, rfl⟩ | cases h
def leaving (q : List QEntry) : State := (State.grp base (fun g => { g with queue := q })).updCtx 16 (fun c => { c with leave := some (.evict true ⟨5, [], 16, 0x8000⟩) })

theorem witness_RegisterAndEvictionEvents :
    (∃ (s : State) (a c : Nat) (v : DWord), s.liveCtx a = true ∧ s.liveCtx c = true ∧ v.getLsbD 63 = true ∧ v &&& 0x7F0000000001FFFE = 0 ∧ (s.getCtx a).auth = 1 ∧
      (s.getCtx a).part = (s.getCtx c).part ∧ v.toNat / 2 ^ 17 % 2 ^ 39 = 2 ^ 39 - 1) ∧
    (∃ (s : State) (a : Nat) (v : DWord), s.liveCtx a = true ∧ v.getLsbD 63 = false ∧ v &&& 0x7F0000000001FFFE = 0 ∧ v.getLsbD 0 = true) ∧
    (∃ (s : State) (a : Nat) (v : DWord), s.liveCtx a = true ∧ v.toNat = 2 ^ 25 - 1) ∧ (∃ (s : State) (a : Nat) (v : DWord), s.liveCtx a = true ∧ v &&& 0xFF0000000000003F = 0 ∧ v ≠ 0) ∧
    (∃ (s : State) (c p : Nat), ∃ pa x y, walk2 s c (p * 131072) 5 0 (s.getCtx c).s2root.toNat = .leaf pa x y) ∧
    (∃ (s : State) (a c r : Nat) (v : DWord), s.liveCtx a = true ∧ s.liveCtx c = true ∧ a ≠ c ∧ r = 0x16 ∧ writeBad s (0, 0) a c r v.toNat = none ∧ v.toNat = 2 ^ 20 - 1) ∧
    (∃ (s : State) (a c : Nat), s.liveCtx a = true ∧ s.liveCtx c = true ∧ a ≠ c ∧ (s.getCtx a).auth = 1 ∧ (s.getCtx a).part = (s.getCtx c).part) ∧
    (∃ (s : State) (fn : Nat) (v : DWord), fn = 15 ∧ s.boot.phase = .running ∧ (s.ctl.funcs.find? (fun f => f.fn == fn)).isSome = true ∧ v.getLsbD 0 = true ∧ (s.func fn).go = false ∧
      (s.func fn).cmdaddr.toNat < 0x8000000000000) ∧
    (∃ (s : State) (ctx : Nat) (hold : Bool) (p : SealPlan), (s.getCtx ctx).leave = some (.evict hold p) ∧
      leaveReady s ctx (.evict hold p) (leavingBlocks s ctx (.evict hold p)) = false) ∧
    ∃ (s : State) (ctx : Nat) (hold : Bool) (p : SealPlan), (s.getCtx ctx).leave = some (.evict hold p) ∧
      leaveReady s ctx (.evict hold p) (leavingBlocks s ctx (.evict hold p)) = true ∧ (∃ g ∈ s.groups, g.ctx = ctx ∧ g.resident = true) ∧
      ∀ g ∈ s.groups, g.ctx = ctx → g.resident = true → ∃ b ∈ s.blocks, b.id = g.block ∧ b.placed = true ∧ b.ctx = ctx :=
  ⟨⟨opBase, 16, 17, 0x80FFFFFFFFFE0000, by decide +kernel⟩, ⟨base, 16, 0x00FFFFFFFFFE0001, by decide +kernel⟩, ⟨base, 16, 0x1FFFFFF, by decide +kernel⟩,
   ⟨base, 16, 0x00FFFFFFFFFFFFC0, by decide +kernel⟩, ⟨base, 16, 0, leafOf (by decide +kernel)⟩, ⟨opBase, 16, 17, 0x16, 0xFFFFF, by decide +kernel⟩, ⟨opBase, 16, 17, by decide +kernel⟩,
   ⟨base, 15, 1, by decide +kernel⟩, ⟨leaving [⟨0, 0, 0x8000, 0x8000, 0, [], .store, none⟩], 16, true, ⟨5, [], 16, 0x8000⟩, by decide +kernel⟩,
   ⟨leaving [], 16, true, ⟨5, [], 16, 0x8000⟩, by decide +kernel⟩⟩

def pk (job vc win : Nat) : Packet := { (default : Packet) with dst := 1, job := job, vc := vc, sendWindow := win, addr := 0x8000, payload := List.replicate 64 7 }
/-- Port 11 as given, at 4096 ns; a path of a budget; the job's member on this chip. -/
def fabS (q : Port) (budget : Nat) (run : Nat) : State :=
  let s := (dirtyS base).updCtx 16 (fun c => { c with gang := true, gangPos := 1, gangSize := 2, jobTag := 7, run := run })
  { s with now := 4096, fab := { s.fab with ports := s.fab.ports.map (fun (p : Port) => if p.port == 11 then q else p), paths := [⟨7, 1, 3, [11], budget, 0, 0⟩] } }
def upP : Port := { Port.reset 11 with up := true }
def swW (phase : SwPhase) : Switch := { (default : Switch) with ctx := 16, gid := 1, window := 1, phase := phase, imageId := 5, plan := ⟨5, List.replicate 10 4096, 16, 0x8000⟩ }
def withSw (phase : SwPhase) (s : State) : State := { s with fab := { s.fab with switches := [swW phase] } }

theorem witness_FabricEvents :
    (∃ (s : State) (port vc : Nat) (q : Port) (x : OutPacket) (xs : List OutPacket), s.port? port = some q ∧ q.up = true ∧ q.fault = false ∧ q.disabled = false ∧
      q.outbox.filter (fun x => x.pkt.vc == vc) = x :: xs ∧ x.transit = true) ∧
    (∀ budget ∈ [127, 128], ∃ (s : State) (port vc : Nat) (q : Port) (x : OutPacket) (xs : List OutPacket) (pa : Machine.Path), s.port? port = some q ∧ q.up = true ∧ q.fault = false ∧ q.disabled = false ∧
      q.outbox.filter (fun x => x.pkt.vc == vc) = x :: xs ∧ x.transit = false ∧ s.path? x.pkt.job x.pkt.dst x.pkt.vc = some pa ∧ holdsJob s x.pkt = false ∧ pa.budget = budget ∧
      64 * (1 + (x.pkt.payload.length + 63) / 64) = 128) ∧
    (∃ (s : State) (port : Nat) (p : Packet) (q : Port) (c : Ctx), s.port? port = some q ∧ q.up = true ∧ q.fault = false ∧ q.disabled = false ∧ p.kind ≤ 1 ∧ p.payload.length = 4096 ∧
      p.vc = 3 ∧ jobCtx s p.job = some c ∧ c.gangPos = p.dst ∧ leavingSwitch s p.job = none) ∧
    (∃ (s s1 : State) (port vc : Nat) (q : Port) (x : RxPacket) (c : Ctx), s.port? port = some q ∧ q.rx.find? (fun x => x.pkt.vc == vc) = some x ∧ jobCtx s x.pkt.job = some c ∧
      c.run ≠ 6 ∧ x.pkt.kind = 0 ∧ packetWrite s c.num port x.pkt = (s1, some true)) ∧
    (∃ (s : State) (port vc idx : Nat) (q : Port) (x : OutPacket), s.port? port = some q ∧ (q.outbox.filter (fun x => x.pkt.vc == vc))[idx]? = some x ∧ x.transit = true ∧
      x.pkt.sendWindow + 3 = s.now / 1024) ∧
    (∃ (s : State) (port : Nat) (q : Port), s.port? port = some q ∧ q.replays = 8 ∧ q.fault = false) ∧ (∃ (s : State) (port : Nat) (q : Port), s.port? port = some q ∧ q.replays = 7) ∧
    (∃ (s : State) (port : Nat) (q : Port), s.port? port = some q ∧ q.up = true ∧ q.fault = false ∧ q.disabled = false) ∧
    (∃ (s : State) (port : Nat) (q : Port), s.port? port = some q ∧ q.fault = true) ∧
    (∃ (s : State) (job : Nat) (w : Switch), leavingSwitch s job = some w ∧ w.window ≤ s.now / 1024 ∧ s.now / 1024 + 1 = w.window + 4) ∧
    (∃ (s : State) (p : PtpFacts), decide (100 < s.fab.offset.natAbs) = decide (100 < p.offset.natAbs) ∧ 50 < p.offset.natAbs) ∧
    (∃ (s : State) (p : PtpFacts) (q : Port), decide (100 < s.fab.offset.natAbs) ≠ decide (100 < p.offset.natAbs) ∧ q ∈ s.fab.ports ∧ q.up = true ∧ q.fault = false ∧ q.disabled = false) ∧
    (∃ (s : State) (b : Nat), s.fab.beyond50 = some b ∧ b + 100000000 = s.now ∧ ∀ f ∈ s.ctl.funcs, f.timebad = false) ∧
    ∃ (s : State) (b : Nat), s.fab.within50 = some b ∧ b + 100000000 = s.now := by
  let qt : Port := { upP with outbox := [⟨0, pk 9 3 1, true⟩] }
  let qo : Port := { upP with outbox := [⟨4, pk 7 3 0, false⟩] }
  let qr : Port := { upP with rx := [⟨pk 7 3 0, 4, false⟩] }
  have hw : (packetWrite (fabS qr 0 2) 16 11 (pk 7 3 0)).2 = some true := by decide +kernel
  refine ⟨⟨fabS qt 0 2, 11, 3, qt, ⟨0, pk 9 3 1, true⟩, [], by decide +kernel⟩, ?_,
    ⟨fabS upP 0 2, 11, { pk 7 3 0 with payload := List.replicate 4096 1 }, upP, (fabS upP 0 2).getCtx 16, by decide +kernel, rfl, rfl, rfl, by decide, List.length_replicate, rfl, by decide +kernel,
      by decide +kernel, by decide +kernel⟩,
    ⟨fabS qr 0 2, (packetWrite (fabS qr 0 2) 16 11 (pk 7 3 0)).1, 11, 3, qr, ⟨pk 7 3 0, 4, false⟩, (fabS qr 0 2).getCtx 16, by decide +kernel, by decide +kernel, by decide +kernel, by decide +kernel, rfl,
      Prod.ext rfl hw⟩,
    ⟨fabS qt 0 2, 11, 3, 0, qt, ⟨0, pk 9 3 1, true⟩, by decide +kernel⟩,
    ⟨fabS { upP with replays := 8 } 0 2, 11, { upP with replays := 8 }, by decide +kernel⟩, ⟨fabS { upP with replays := 7 } 0 2, 11, { upP with replays := 7 }, by decide +kernel⟩,
    ⟨fabS upP 0 2, 11, upP, by decide +kernel⟩, ⟨fabS { Port.reset 11 with fault := true } 0 2, 11, { Port.reset 11 with fault := true }, by decide +kernel⟩,
    ⟨withSw .sealed (fabS upP 0 2), 7, swW .sealed, by decide +kernel⟩, ⟨base, ⟨51⟩, by decide +kernel⟩, ⟨fabS upP 0 2, ⟨-101⟩, upP, by decide +kernel⟩,
    ⟨{ base with now := 100000000, fab := { base.fab with beyond50 := some 0 } }, 0, by decide +kernel⟩, ⟨{ base with now := 100000000, fab := { base.fab with within50 := some 0 } }, 0, by decide +kernel⟩⟩
  intro n _
  exact ⟨fabS qo n 2, 11, 3, qo, ⟨4, pk 7 3 0, false⟩, [], ⟨7, 1, 3, [11], n, 0, 0⟩, by decide +revert +kernel, rfl, rfl, rfl, rfl, rfl, by decide +revert +kernel, by decide +revert +kernel, rfl, rfl⟩

def gwS (phase : SwPhase) (t : Nat) (rx : List RxPacket) : State := { withSw phase (fabS { upP with rx := rx } 0 2) with now := t }
def clrRec : AreaRec := ⟨11, pk 7 3 0, 1, 0⟩
def gwImage : Image := { gImage with clr := [clrRec], wf := [clrRec] }

theorem witness_GangSwitchWindows :
    (∃ (s : State) (ctx : Nat) (w : Switch), s.switch? ctx = some w ∧ w.phase = .waiting ∧ w.window * 1024 = s.now ∧ (s.getCtx ctx).gang = true ∧
      ∃ q ∈ s.fab.ports, q.port < 12 ∧ ∃ x ∈ q.rx, x.pkt.job = (s.getCtx ctx).jobTag ∧ x.pkt.vc < 4) ∧
    (∃ (s : State) (ctx : Nat) (w : Switch), s.switch? ctx = some w ∧ w.phase = .swept ∧ (w.window + 1) * 1024 = s.now ∧ switchQuiet s ctx = true) ∧
    (∃ (s : State) (ctx : Nat) (w : Switch), s.switch? ctx = some w ∧ w.phase = .sealed ∧ (w.window + 4) * 1024 = s.now ∧ s.ctx? ctx = some (s.getCtx ctx)) ∧
    (∃ (s : State) (ctx : Nat) (w : Switch) (im : Image), s.switch? ctx = some w ∧ w.phase = .restoring ∧ w.window * 1024 = s.now ∧ s.ctx? ctx = some (s.getCtx ctx) ∧
      s.vault.find? (fun x => x.id == w.imageId) = some im ∧ im.clr ≠ [] ∧ im.wf ≠ []) ∧
    ∃ (s : State) (ctx : Nat) (w : Switch), s.switch? ctx = some w ∧ w.phase = .injected ∧ (w.window + 2) * 1024 = s.now ∧ s.ctx? ctx = some (s.getCtx ctx) ∧
      ∀ q ∈ s.fab.ports, ∀ x ∈ q.rx, x.again = true → x.pkt.job ≠ (s.getCtx ctx).jobTag :=
  ⟨⟨gwS .waiting 1024 [⟨pk 7 3 0, 0, false⟩], 16, swW .waiting, by decide +kernel⟩, ⟨gwS .swept 2048 [], 16, swW .swept, by decide +kernel⟩, ⟨gwS .sealed 5120 [], 16, swW .sealed, by decide +kernel⟩,
   ⟨{ gwS .restoring 1024 [] with vault := [gwImage] }, 16, swW .restoring, gwImage, by decide +kernel⟩, ⟨gwS .injected 3072 [⟨pk 7 3 0, 0, false⟩], 16, swW .injected, by decide +kernel⟩⟩

/-! ## Queues, packets and graphs -/

/-- A packet: type, flags, byte 4, bytes 8, 16 and 24. -/
def pktB (ty flags b4 f8 f16 f24 : Nat) : List Byte :=
  bytesOfNat 1 ty ++ bytesOfNat 3 flags ++ bytesOfNat 4 b4 ++ bytesOfNat 8 f8 ++ bytesOfNat 8 f16 ++ bytesOfNat 4 f24 ++ bytesOfNat 36 0
def rQ : QRef := ⟨0, 4095⟩
/-- A mapped, active queue of context 16: its ring at 0x9000, its indexes at 0x8000, its last packet before RDIDX wraps. -/
def q0 : Queue :=
  { (default : Queue) with part := 0, qid := 4095, ctx := 16, ring := 0x9000, log2n := 6, idx := 0x8000, vec := 3, state := 1, wr := 0, rd := 2 ^ 64 - 1, slot := some 127, mappedAt := 5 }
/-- The queue q with the packet b at its head; memory from 0xA000 as given. -/
def qS (q : Queue) (b : List Byte) (n x : Nat) : State :=
  let s := setM 0xA000 n x (setM 0x9FC0 64 (natOfBytes b) ((dirtyS base).updCtx 16 (fun c => { c with part := 0 })))
  { s with now := 100000, ctl := { s.ctl with queues := [q] } }

def atPacketB (P : State → Bool) (s : State) (r : QRef) (q : Queue) (b : List Byte) : Bool :=
  match s.queue? r.part r.qid with
  | none => false
  | some q0 => queueOpen s q0 && q0.now (readIndex s q0) == q &&
    (match headPacket (readIndex s q0) q with
     | .pkt s2 b' => b' == b && (match q.xlate s2 (q.idx + 8) .write with
        | (s3, .ok _ _) => P s3
        | _ => false)
     | _ => false) && q.part == r.part && q.qid == r.qid && q.state == 1 && q.wr != q.rd && decide (q.rd < 2 ^ 64) && q.accepted.isEmpty

theorem atPacket {P : State → Bool} {s : State} {r : QRef} {q : Queue} {b : List Byte} (h : atPacketB P s r q b = true) : ∃ s3, Sys2Proof.AtPacket s r q b s3 ∧ P s3 = true := by
  unfold atPacketB at h
  split at h
  · cases h
  · rename_i q0 hq
    simp only [Bool.and_eq_true, beq_iff_eq, bne_iff_ne, decide_eq_true_eq, List.isEmpty_iff] at h
    obtain ⟨⟨⟨⟨⟨⟨⟨⟨h1, h2⟩, h3⟩, h4⟩, h5⟩, h6⟩, h7⟩, h8⟩, h9⟩ := h
    split at h3
    · rename_i s2 b' e
      simp only [Bool.and_eq_true, beq_iff_eq] at h3
      obtain ⟨rfl, h3⟩ := h3
      split at h3
      · rename_i s3 pa ip e2
        exact ⟨s3, ⟨⟨q0, _, s2, pa, ip, hq, h1, rfl, h2, e, e2⟩, ⟨h4, h5⟩, h6, h7, h8, by simp [h9]⟩, h3⟩
      · cases h3
    · cases h3

def isBegan (x : RunStart) : Bool := match x with | .began _ _ => true | .wait _ => false
theorem beganOf {x : RunStart} (h : isBegan x = true) : ∃ s id, x = .began s id := by
  cases x with
  | wait s => cases h
  | began s id => exact ⟨s, id, rfl⟩
def isWord (x : UpdOut) : Bool := match x with | .ok _ _ => true | _ => false
theorem wordOf {x : UpdOut} (h : isWord x = true) : ∃ s g, x = .ok s g := by
  cases x <;> first | exact ⟨_, _, rfl⟩ | cases h
/-- The bytes are read, and hold. -/
def gotB (P : List Byte → Bool) (x : State × (Tr ⊕ List Byte)) : Bool := match x.2 with | .inr b => P b | .inl _ => false
theorem gotOf {P : List Byte → Bool} {x : State × (Tr ⊕ List Byte)} (h : gotB P x = true) : ∃ s b, x = (s, .inr b) ∧ P b = true := by
  obtain ⟨s, y⟩ := x
  cases y with
  | inl t => cases h
  | inr b => exact ⟨s, b, rfl, h⟩
theorem waitOf {s : State} {q : Queue} {w : WaitState} {ok : Bool} (h : (waitHolds s q w).2.1 = ok) : ∃ s1 i, waitHolds s q w = (s1, ok, i) :=
  ⟨_, _, Prod.ext rfl (Prod.ext h rfl)⟩
theorem pairOf {α : Type} {x : α × Bool} {b : Bool} (h : x.2 = b) : ∃ a, x = (a, b) := ⟨x.1, Prod.ext rfl h⟩
def isBad (x : Head) : Bool := match x with | .bad _ _ => true | _ => false
theorem badOf {x : Head} (h : isBad x = true) : ∃ s n, x = .bad s n := by
  cases x <;> first | exact ⟨_, _, rfl⟩ | cases h

/-- A graph's header at 0xA000 and its one node at 0xA040, a signal of the word at 0xA100. -/
def graphNat : Nat := natOfBytes (bytesOfNat 8 0xA040 ++ bytesOfNat 8 1 ++ bytesOfNat 8 0xA108 ++ bytesOfNat 40 7 ++
  (bytesOfNat 8 6 ++ bytesOfNat 8 0xA000 ++ bytesOfNat 8 0xA100 ++ bytesOfNat 8 5 ++ bytesOfNat 32 0))
/-- The triple: the word at 0xA010 equals 0. -/
def tripleNat : Nat := 0xA010
def wq (all : Bool) (v : Nat) : Queue := { q0 with wait := some ⟨2 ^ 64 - 2, all, [⟨0xA010, 0, v⟩], 0, true, 5⟩ }
def doneQ : Queue := { q0 with accepted := [⟨0, 1, true, true, none⟩, ⟨1, 7, false, false, none⟩] }

theorem witness_QueuePackets :
    (∃ s s3 r q b, Sys2Proof.AtPacket s r q b s3 ∧ leAt b 0 1 = 0) ∧ (∃ s s3 r q b, Sys2Proof.AtPacket s r q b s3 ∧ leAt b 0 1 = 1) ∧
    (∃ s s3 r q b, Sys2Proof.AtPacket s r q b s3 ∧ leAt b 0 1 = 2 ∧ ∃ s4 id, beginRun s3 q.ctx (leAt b 8 8) (leAt b 4 1 == 1) (leAt b 16 8) 0 none (.packet q.part q.qid q.rd) = .began s4 id) ∧
    (∀ ty, ty = 3 ∨ ty = 4 → ∃ s s3 r q b, Sys2Proof.AtPacket s r q b s3 ∧ leAt b 0 1 = ty ∧
      ∃ s4 t' ts, xReadN q.xlate s3 (leAt b 8 8) (16 * leAt b 4 1) = (s4, .inr t') ∧ triplesOf (leAt b 4 1) t' = .inr ts) ∧
    (∃ s s3 r q b, Sys2Proof.AtPacket s r q b s3 ∧ leAt b 0 1 = 5 ∧ ∃ s4 g, wordUpdate q.xlate q.dirty s3 (leAt b 8 8) (leAt b 4 1 == 1) (leAt b 16 8) = .ok s4 g) ∧
    (∃ s s3 r q b, Sys2Proof.AtPacket s r q b s3 ∧ leAt b 0 1 = 6 ∧ ∃ f s4 d, s3.feed? q.ctx (leAt b 16 2) = some f ∧ f.recs.length < f.cap ∧
      xReadN q.xlate s3 (leAt b 8 8) 64 = (s4, .inr d)) ∧
    (∃ s s3 r q b, Sys2Proof.AtPacket s r q b s3 ∧ leAt b 0 1 = 6 ∧ ∃ f, s3.feed? q.ctx (leAt b 16 2) = some f ∧ f.cap ≤ f.recs.length) ∧
    (∃ s s3 r q b, Sys2Proof.AtPacket s r q b s3 ∧ leAt b 0 1 = 7 ∧ leAt b 24 4 = 0) ∧ (∃ s s3 r q b, Sys2Proof.AtPacket s r q b s3 ∧ leAt b 0 1 = 7 ∧ leAt b 24 4 ≠ 0) ∧
    (∃ s s3 r q b, Sys2Proof.AtPacket s r q b s3 ∧ leAt b 0 1 = 8 ∧ q.gwct ≤ s3.now) ∧ (∃ s s3 r q b, Sys2Proof.AtPacket s r q b s3 ∧ leAt b 0 1 = 8 ∧ s3.now < q.gwct) ∧
    (∃ (s s1 s2 : State) (r : QRef) (q0 q : Queue) (ty n : Nat), ty = 8 ∧ s.queue? r.part r.qid = some q0 ∧ queueOpen s q0 = true ∧ readIndex s q0 = s1 ∧
      q0.now s1 = q ∧ q.part = r.part ∧ q.qid = r.qid ∧ q.state = 1 ∧ q.wr ≠ q.rd ∧ headPacket s1 q = .bad s2 n) ∧
    (∀ ok, ∃ (s s1 : State) (r : QRef) (q : Queue) (w : WaitState) (i : Nat), s.queue? r.part r.qid = some q ∧ q.part = r.part ∧ q.qid = r.qid ∧ q.slot.isSome = true ∧
      q.wait = some w ∧ (q.pasidv = true → ∀ d ∈ s.ctl.draining, d.1 ≠ q.pasid) ∧ (w.all = true ∨ w.result = 0) ∧ waitHolds s q w = (s1, ok, i)) ∧
    ∃ (s : State) (r : QRef) (q : Queue) (a : Accepted) (idx : Nat), s.queue? r.part r.qid = some q ∧ q.part = r.part ∧ q.qid = r.qid ∧
      q.accepted.find? (fun a => a.idx == idx && a.done) = some a := by
  refine ⟨?_, ?_, ?_, ?_, ?_, ?_, ?_, ?_, ?_, ?_, ?_, ?_, ?_, ?_⟩
  · obtain ⟨s3, a, _⟩ := atPacket (P := fun _ => true) (s := qS q0 (pktB 0 3 0 0 0 0) 8 0) (r := rQ) (q := q0) (b := pktB 0 3 0 0 0 0) (by decide +kernel)
    exact ⟨_, s3, _, _, _, a, by decide +kernel⟩
  · obtain ⟨s3, a, _⟩ := atPacket (P := fun _ => true) (s := qS q0 (pktB 1 3 0 0xA000 5 0) 8 0) (r := rQ) (q := q0) (b := pktB 1 3 0 0xA000 5 0) (by decide +kernel)
    exact ⟨_, s3, _, _, _, a, by decide +kernel⟩
  · obtain ⟨s3, a, h⟩ := atPacket (P := fun s3 => isBegan (beginRun s3 16 0xA000 false 9 0 none (.packet 0 4095 (2 ^ 64 - 1)))) (s := qS q0 (pktB 2 0 0 0xA000 9 0) 128 graphNat) (r := rQ) (q := q0)
      (b := pktB 2 0 0 0xA000 9 0) (by decide +kernel)
    exact ⟨_, s3, _, _, _, a, by decide +kernel, beganOf h⟩
  · have h : ∀ ty ∈ [3, 4], atPacketB (fun s3 => gotB (fun t => (triplesOf 1 t).isRight) (xReadN q0.xlate s3 0xA000 16)) (qS q0 (pktB ty 0 1 0xA000 0 0) 16 tripleNat) rQ q0 (pktB ty 0 1 0xA000 0 0) = true ∧
        leAt (pktB ty 0 1 0xA000 0 0) 0 1 = ty ∧ leAt (pktB ty 0 1 0xA000 0 0) 8 8 = 0xA000 ∧ leAt (pktB ty 0 1 0xA000 0 0) 4 1 = 1 := by decide +kernel
    intro ty hty
    have g := h ty (by simpa using hty)
    obtain ⟨s3, a, p⟩ := atPacket g.1
    obtain ⟨s4, t', e, p⟩ := gotOf p
    obtain ⟨ts, p⟩ := inrOf p
    exact ⟨_, s3, _, _, _, a, g.2.1, s4, t', ts, by rw [g.2.2.1, g.2.2.2]; exact e, by rw [g.2.2.2]; exact p⟩
  · obtain ⟨s3, a, h⟩ := atPacket (P := fun s3 => isWord (wordUpdate q0.xlate q0.dirty s3 0xA000 true 0xFFFFFFFFFFFFFFFF)) (s := qS q0 (pktB 5 0 1 0xA000 0xFFFFFFFFFFFFFFFF 0xFFFFFFFF) 8 1) (r := rQ) (q := q0)
      (b := pktB 5 0 1 0xA000 0xFFFFFFFFFFFFFFFF 0xFFFFFFFF) (by decide +kernel)
    exact ⟨_, s3, _, _, _, a, by decide +kernel, wordOf h⟩
  · obtain ⟨s3, a, h⟩ := atPacket (P := fun s3 => decide (s3.feed? 16 287 = some ⟨16, 287, 4096, []⟩) && gotB (fun _ => true) (xReadN q0.xlate s3 0xA000 64))
      (s := { qS q0 (pktB 6 0 0 0xA000 287 0) 8 0 with feeds := [⟨16, 287, 4096, []⟩] }) (r := rQ) (q := q0) (b := pktB 6 0 0 0xA000 287 0) (by decide +kernel)
    simp only [Bool.and_eq_true, decide_eq_true_eq] at h
    obtain ⟨s4, d, e, _⟩ := gotOf h.2
    exact ⟨_, s3, _, _, _, a, by decide +kernel, ⟨16, 287, 4096, []⟩, s4, d, h.1, by decide, e⟩
  · obtain ⟨s3, a, h⟩ := atPacket (P := fun s3 => decide (s3.feed? 16 287 = some ⟨16, 287, 1, [[]]⟩)) (s := { qS q0 (pktB 6 0 0 0xA000 287 0) 8 0 with feeds := [⟨16, 287, 1, [[]]⟩] }) (r := rQ) (q := q0)
      (b := pktB 6 0 0 0xA000 287 0) (by decide +kernel)
    exact ⟨_, s3, _, _, _, a, by decide +kernel, _, of_decide_eq_true h, by decide⟩
  · obtain ⟨s3, a, _⟩ := atPacket (P := fun _ => true) (s := qS q0 (pktB 7 0 0 0xA000 0xB000 0) 8 0) (r := rQ) (q := q0) (b := pktB 7 0 0 0xA000 0xB000 0) (by decide +kernel)
    exact ⟨_, s3, _, _, _, a, by decide +kernel⟩
  · obtain ⟨s3, a, _⟩ := atPacket (P := fun _ => true) (s := qS q0 (pktB 7 0 0 0xA000 0xB000 5) 8 0) (r := rQ) (q := q0) (b := pktB 7 0 0 0xA000 0xB000 5) (by decide +kernel)
    exact ⟨_, s3, _, _, _, a, by decide +kernel⟩
  · obtain ⟨s3, a, h⟩ := atPacket (P := fun s3 => decide (100000 ≤ s3.now)) (s := qS { q0 with gwct := 100000 } (pktB 8 0 4 0 0 0) 8 0) (r := rQ) (q := { q0 with gwct := 100000 }) (b := pktB 8 0 4 0 0 0)
      (by decide +kernel)
    exact ⟨_, s3, _, _, _, a, by decide +kernel, of_decide_eq_true h⟩
  · obtain ⟨s3, a, h⟩ := atPacket (P := fun s3 => decide (s3.now < 100001)) (s := qS { q0 with gwct := 100001 } (pktB 8 0 8 0 0 0) 8 0) (r := rQ) (q := { q0 with gwct := 100001 }) (b := pktB 8 0 8 0 0 0)
      (by decide +kernel)
    exact ⟨_, s3, _, _, _, a, by decide +kernel, of_decide_eq_true h⟩
  · obtain ⟨s2, n, h⟩ := badOf (x := headPacket (readIndex (qS q0 (pktB 9 0 0 0 0 0) 8 0) q0) q0) (by decide +kernel)
    exact ⟨_, _, s2, rQ, q0, q0, 8, n, rfl, by decide +kernel, by decide +kernel, rfl, by decide +kernel, rfl, rfl, rfl, by decide +kernel, h⟩
  · intro ok
    have h : ∀ ok : Bool, (waitHolds (qS (wq ok (if ok then 0 else 1)) [] 8 0) (wq ok (if ok then 0 else 1)) ⟨2 ^ 64 - 2, ok, [⟨0xA010, 0, if ok then 0 else 1⟩], 0, true, 5⟩).2.1 = ok ∧
        (qS (wq ok (if ok then 0 else 1)) [] 8 0).queue? 0 4095 = some (wq ok (if ok then 0 else 1)) := by decide +kernel
    obtain ⟨s1, i, e⟩ := waitOf (h ok).1
    exact ⟨_, s1, rQ, wq ok (if ok then 0 else 1), _, i, (h ok).2, rfl, rfl, rfl, rfl, fun h => absurd h (by cases ok <;> decide), .inr rfl, e⟩
  · exact ⟨qS doneQ [] 8 0, rQ, doneQ, ⟨0, 1, true, true, none⟩, 0, by decide +kernel⟩

def idleQ : Queue := { q0 with slot := none, state := 0, wr := 2 ^ 64 - 1 }
/-- The context's last wake. -/
def wakeS (q : Queue) (at' : Nat) (flagged : List Nat) : State := (qS q [] 8 0).updCtx 16 (fun c => { c with lastWake := some at', flagged := flagged })
def pendQ : Queue := { q0 with qid := 4094, slot := none, state := 1, pwake := some 7 }
def manyQ (n : Nat) : State :=
  let s := qS q0 [] 8 0
  { s with ctl := { s.ctl with queues := pendQ :: (wq true 1) :: (List.range n).map (fun i => { q0 with qid := i, slot := some i }) } }

theorem witness_QueueWakes :
    (∃ (s : State) (r : QRef) (q : Queue), s.queue? r.part r.qid = some q ∧ q.part = r.part ∧ q.qid = r.qid ∧ q.state < 2 ∧ s.ctx? q.ctx = some (s.getCtx q.ctx) ∧
      (∀ x, (s.getCtx q.ctx).lastWake = some x → x + 200 ≤ s.now) ∧ (s.getCtx q.ctx).flagged = []) ∧
    (∀ again, ∃ (s : State) (r : QRef) (q : Queue), s.queue? r.part r.qid = some q ∧ q.part = r.part ∧ q.qid = r.qid ∧ q.state < 2 ∧ s.ctx? q.ctx = some (s.getCtx q.ctx) ∧
      (∃ x, (s.getCtx q.ctx).lastWake = some x ∧ s.now < x + 200) ∧ q.again = again) ∧
    (∃ (s : State) (ctx qid x : Nat) (rest : List Nat) (q : Queue), s.ctx? ctx = some (s.getCtx ctx) ∧ (s.getCtx ctx).flagged = qid :: rest ∧
      (s.getCtx ctx).lastWake = some x ∧ x + 200 ≤ s.now ∧ s.queue? (s.getCtx ctx).part qid = some q ∧ q.part = (s.getCtx ctx).part ∧ q.qid = qid ∧ q.ctx = ctx) ∧
    (∃ s : State, s.ctl.mapTicks < s.now / 100000 ∧ pendingWakes s = []) ∧
    (∃ (s : State) (q : Queue), s.ctl.mapTicks < s.now / 100000 ∧ pendingWakes s = [q] ∧ mayMap s q = true) ∧
    (∃ (s : State) (r : QRef) (q : Queue), s.queue? r.part r.qid = some q ∧ q.part = r.part ∧ q.qid = r.qid ∧ quantumOver s q = false) ∧
    (∃ (s : State) (r : QRef) (q w : Queue), s.queue? r.part r.qid = some q ∧ q.part = r.part ∧ q.qid = r.qid ∧ quantumOver s q = true ∧ pendingWakes s = [w] ∧
      (w.part, w.qid) ≠ (q.part, q.qid) ∧ q ∈ victimsFor s w) ∧
    (∃ s : State, (∀ q ∈ s.ctl.queues, q.wait = none ∨ (q.watch = false ∧ q.state ≠ 3)) ∧ s.ctl.queues ≠ []) ∧
    (∃ (s s1 : State) (q : Queue) (w : WaitState) (i : Nat), s.ctl.queues = [q] ∧ q.wait = some w ∧ q.watch = true ∧ q.state = 1 ∧ q.slot = none ∧
      waitHolds s q w = (s1, true, i)) ∧
    (∃ (s : State) (r : QRef) (q : Queue), s.queue? r.part r.qid = some q ∧ q.part = r.part ∧ q.qid = r.qid ∧ q.state = 3 ∧ q.accepted = []) ∧
    ∃ (s : State) (r : QRef) (q : Queue), s.queue? r.part r.qid = some q ∧ q.part = r.part ∧ q.qid = r.qid ∧ q.state = 3 ∧ q.accepted ≠ [] := by
  have h : ∀ b : Bool, (wakeS { idleQ with again := b } 99801 [5]).queue? 0 4095 = some { idleQ with again := b } ∧
      (wakeS { idleQ with again := b } 99801 [5]).ctx? 16 = some ((wakeS { idleQ with again := b } 99801 [5]).getCtx 16) ∧
      ((wakeS { idleQ with again := b } 99801 [5]).getCtx 16).lastWake = some 99801 ∧ (wakeS { idleQ with again := b } 99801 [5]).now < 99801 + 200 := by decide +kernel
  have hw : (waitHolds (qS { wq true 0 with watch := true, slot := none } [] 8 0) { wq true 0 with watch := true, slot := none } ⟨2 ^ 64 - 2, true, [⟨0xA010, 0, 0⟩], 0, true, 5⟩).2.1 = true := by decide +kernel
  obtain ⟨s1, i, ew⟩ := waitOf hw
  refine ⟨⟨wakeS idleQ 99800 [], rQ, idleQ, by decide +kernel, rfl, rfl, by decide, by decide +kernel, ?_, by decide +kernel⟩,
    fun b => ⟨_, rQ, _, (h b).1, rfl, rfl, by simp [idleQ], (h b).2.1, ⟨99801, (h b).2.2⟩, rfl⟩,
    ⟨wakeS { idleQ with again := true } 99800 [4095, 4094], 16, 4095, 99800, [4094], { idleQ with again := true }, by decide +kernel⟩,
    ⟨qS q0 [] 8 0, by decide +kernel⟩, ⟨manyQ 126, pendQ, by decide +kernel⟩, ⟨qS { wq true 0 with slot := none } [] 8 0, rQ, { wq true 0 with slot := none }, by decide +kernel⟩,
    ⟨manyQ 127, rQ, wq true 1, pendQ, by decide +kernel⟩, ⟨qS (wq true 0) [] 8 0, by decide +kernel⟩,
    ⟨qS { wq true 0 with watch := true, slot := none } [] 8 0, s1, { wq true 0 with watch := true, slot := none }, ⟨2 ^ 64 - 2, true, [⟨0xA010, 0, 0⟩], 0, true, 5⟩, i, rfl, rfl, rfl, rfl, rfl, ew⟩,
    ⟨qS { q0 with state := 3 } [] 8 0, rQ, { q0 with state := 3 }, by decide +kernel⟩, ⟨qS { doneQ with state := 3 } [] 8 0, rQ, { doneQ with state := 3 }, by decide +kernel⟩⟩
  intro x hx
  have e : ((wakeS idleQ 99800 []).getCtx idleQ.ctx).lastWake = some 99800 := by decide +kernel
  rw [e] at hx
  cases hx
  decide +kernel

def kNode (st : NodeState) : Node := { (default : Node) with kind := 1, st := st, inRun := true }
def graphRun (st : NodeState) : Machine.Run := { (default : Machine.Run) with id := 70, ctx := 16, header := 0xA000, nodes := [kNode st], doneaddr := 0xA008, donetag := 9, src := .instr }
def graphS (st : NodeState) (ls : List Launch) : State := let s := qS q0 [] 8 0; { s with ctl := { s.ctl with runs := [graphRun st], launches := ls, waitingHdr := [] } }

theorem witness_GraphRuns :
    (∀ gone, ∃ (s : State) (id i : Nat) (r : Machine.Run) (n : Node), s.ctl.heldRuns = [] ∧ s.run? id = some r ∧ r.id = id ∧ r.nodes[i]? = some n ∧ n.inRun = true ∧ n.st = .running ∧
      n.kind = 1 ∧ (∀ x ∈ r.nodes, x.inRun = true → x.st = .waiting → x.pred ≠ 0) ∧ launchGone s id i = gone) ∧
    ∃ (s s1 : State) (id : Nat) (r : Machine.Run), s.ctl.heldRuns = [] ∧ s.run? id = some r ∧ r.id = id ∧ r.parent = none ∧ r.status = 0 ∧
      (∀ n ∈ r.nodes, n.inRun = true → n.st = .done) ∧ (∀ x ∈ s.ctl.runs, ∀ n ∈ x.nodes, n.want = false) ∧
      completionWord s (.control id) r.ctx r.doneaddr r.donetag 0 = (s1, true) := by
  have h : ∀ b : Bool, let s := graphS .running (if b then [] else [{ (default : Launch) with src := .node 70 0 }])
      s.ctl.heldRuns = [] ∧ s.run? 70 = some (graphRun .running) ∧ launchGone s 70 0 = b := by decide +kernel
  have hc : (completionWord (graphS .done []) (.control 70) 16 0xA008 9 0).2 = true := by decide +kernel
  obtain ⟨s1, e⟩ := pairOf hc
  exact ⟨fun b => ⟨_, 70, 0, graphRun .running, kNode .running, (h b).1, (h b).2.1, rfl, rfl, rfl, rfl, rfl, by decide, (h b).2.2⟩,
    ⟨graphS .done [], s1, 70, graphRun .done, by decide +kernel, by decide +kernel, rfl, rfl, rfl, by decide, by decide +kernel, e⟩⟩

/-! ## Metering, power, resets, start-up -/

def late : State := { base with now := 100000 }
def sliceS (at' : Nat) : State := { base with now := at' }.updCtx 16 (fun c => { c with run := 2, sliceStart := some 0, slice := 0x000FFFFF })
def bktS : State := late.updCtx 16 (fun c => { c with bkt := [{ (default : Bucket) with rate := 5, level := 5120, used := 5119 }, { (default : Bucket) with rate := 0x3FFFFF }, { (default : Bucket) with rate := 0x3FFFFF }] })
def powS (n : Nat) : State := { base with ctl := { base.ctl with powerLevel := n } }

theorem witness_MeteringAndPower :
    (∃ b : Bucket, b.rate = 0x3FFFFE ∧ b.pend = none ∧ b.level = 1024 * (b.rate : Int)) ∧ (∃ (b : Bucket) (r : Nat) (l : Int), b.pend = some (r, l)) ∧
    (∃ s : State, s.now / 1000 ≤ s.ctl.ticks) ∧ (∃ s : State, s.ctl.ticks < s.now / 1000) ∧
    (∃ (s : State) (c : Ctx), s.ctl.ticks < s.now / 1000 ∧ s.ctxs = [c] ∧ (c.run = 1 ∨ c.run = 2) ∧ c.bkt.length = 3 ∧
      (∀ i < 2, (((c.bkt.getD i default).tick (c.bkt.getD i default).used).rate = 0x3FFFFF ∨ 0 < ((c.bkt.getD i default).tick (c.bkt.getD i default).used).level)) ∧
      (c.bkt.getD 2 default).rate = 0x3FFFFF ∧ (c.bkt.getD 2 default).pend = none) ∧
    (∃ (s : State) (ctx x : Nat), (s.getCtx ctx).sliceStart = some x ∧ (s.getCtx ctx).run = 2 ∧ (s.getCtx ctx).leave = none ∧ (s.getCtx ctx).slice.toNat % 2 ^ 20 ≠ 0 ∧
      x + (s.getCtx ctx).slice.toNat % 2 ^ 20 * 1000 = s.now) ∧
    (∃ (s : State) (ctx x : Nat), (s.getCtx ctx).sliceStart = some x ∧ (s.getCtx ctx).run = 2 ∧ (s.getCtx ctx).leave = none ∧ (s.getCtx ctx).slice.toNat % 2 ^ 20 ≠ 0 ∧
      s.now + 1 = x + (s.getCtx ctx).slice.toNat % 2 ^ 20 * 1000) ∧
    (∃ s : State, s.ctl.checkpoint + 10000 ≤ s.now) ∧ (∃ s : State, s.now < s.ctl.checkpoint + 10000) ∧ (∃ s : State, ∀ x, s.ctl.mismatch = some x → x + 1000000 ≤ s.now) ∧
    (∃ (s : State) (x : Nat), s.ctl.mismatch = some x ∧ s.now + 1 = x + 1000000) ∧ (∃ (s : State) (p : PowerFacts), s.ctl.powerLevel = 3 ∧ p.hot105 = true) ∧
    (∃ (s : State) (p : PowerFacts), s.ctl.powerLevel = 0 ∧ p.hot105 = false ∧ 96 < p.percent) ∧
    ∃ (s : State) (p : PowerFacts), s.ctl.powerLevel = 0 ∧ p.hot105 = false ∧ p.percent = 96 ∧ p.hot95 = false :=
  ⟨⟨{ (default : Bucket) with rate := 0x3FFFFE, level := 1024 * 0x3FFFFE }, rfl, rfl, rfl⟩, ⟨{ (default : Bucket) with pend := some (5, -3) }, 5, -3, rfl⟩, ⟨base, by decide +kernel⟩,
   ⟨late, by decide +kernel⟩, ⟨bktS, bktS.getCtx 16, by decide +kernel⟩, ⟨sliceS 1048575000, 16, 0, by decide +kernel⟩, ⟨sliceS 1048574999, 16, 0, by decide +kernel⟩,
   ⟨late, by decide +kernel⟩, ⟨base, by decide +kernel⟩, ⟨base, fun x h => absurd h (by rw [show base.ctl.mismatch = none by decide +kernel]; exact nofun)⟩,
   ⟨{ base with now := 999999, ctl := { base.ctl with mismatch := some 0 } }, 0, by decide +kernel⟩, ⟨powS 3, ⟨0, false, true⟩, rfl, rfl⟩, ⟨powS 0, ⟨97, false, false⟩, rfl, rfl, by decide⟩,
   ⟨powS 0, ⟨96, false, false⟩, rfl, rfl, rfl, rfl⟩⟩

theorem witness_ResetsAndStart :
    (∃ (s : State) (gid : Nat) (g : Group), s.group? gid = some g ∧ g.resident = true ∧ ∃ b ∈ s.blocks, b.core = g.core ∧ b.placed = true) ∧
    (∃ die : Nat, die = 4) ∧ (∃ (s : State) (die c : Nat), die ≤ 3 ∧ s.liveCtx c = true ∧ onDie s die c = true) ∧
    (∃ s : State, s.boot.phase ≠ .off) ∧ (∃ (s : State) (f : BootFacts), s.boot.phase = .off ∧ f.manifestOk = false) ∧
    ∃ (s : State) (f : BootFacts), s.boot.phase = .off ∧ s.boot.variants = [0, 0, 0, 0] ∧ f.manifestOk = true ∧ f.configOk = true ∧ f.slotAOk = true ∧
      s.boot.fuse ≤ f.slotASvn ∧ f.badClusters = [] ∧ f.memFail = 0 ∧ f.cxlOk = true ∧ f.badPorts = [] ∧ f.controlOk = true :=
  ⟨⟨base, 1, base.getGroup 1, by decide +kernel⟩, ⟨4, rfl⟩, ⟨base, 0, 16, by decide +kernel⟩, ⟨base, by decide +kernel⟩,
   ⟨State.reset, { BootFacts.good with manifestOk := false }, by decide +kernel⟩, ⟨State.reset, BootFacts.good, by decide +kernel⟩⟩

/-! ## Commands -/

/-- Function fn has the command record c: its OP and the bytes from 4 on. -/
def cmdB (op : Nat) (body : List Byte) : List Byte := bytesOfNat 4 op ++ body ++ bytesOfNat (60 - body.length) 0
def cmdS (fn : Nat) (c : List Byte) (s : State) : State := s.updFunc fn (fun f => { f with go := true, cmd := c })
def cmdAtB (s : State) (fn op : Nat) : Bool :=
  (s.func fn).go && decide (fn < 16) && s.boot.phase == .running && (s.func fn).cmd.length == 64 && leAt (s.func fn).cmd 0 1 == op && allZero (s.func fn).cmd 1 3 &&
    (decide (op < 8) || fn == 0)
theorem cmdAt {s : State} {fn op : Nat} (h : cmdAtB s fn op = true) : Sys2Proof.CmdAt s fn op := by
  simp only [cmdAtB, Bool.and_eq_true, Bool.or_eq_true, decide_eq_true_eq, beq_iff_eq] at h
  exact ⟨h.1.1.1.1.1.1, h.1.1.1.1.1.2, h.1.1.1.1.2, h.1.1.1.2, h.1.1.2, h.1.2, fun g => h.2.resolve_left (by omega)⟩

def qcB (flags : Nat) : List Byte := cmdB 1 (bytesOfNat 2 4095 ++ bytesOfNat 2 16 ++ bytesOfNat 8 0x9000 ++ bytesOfNat 1 16 ++ bytesOfNat 1 flags ++ bytesOfNat 2 2047 ++ bytesOfNat 4 0 ++ bytesOfNat 8 0x8000)
def noQ : State := let s := qS q0 [] 8 0; { s with ctl := { s.ctl with queues := [] } }
def nameB (op : Nat) (pin : Nat) : List Byte := cmdB op (bytesOfNat 4 4095 ++ bytesOfNat 1 pin)
def isOkTr (x : State × Tr) : Bool := match x.2 with | .ok _ _ => true | _ => false
theorem okTrOf {x : State × Tr} (h : isOkTr x = true) : ∃ s pa ip, x = (s, .ok pa ip) := by
  obtain ⟨s, t⟩ := x
  cases t <;> first | exact ⟨_, _, _, rfl⟩ | cases h
/-- `n` pinned queues beside the one of the command. -/
def pinned (n : Nat) : State :=
  let s := qS q0 [] 8 0
  { s with ctl := { s.ctl with queues := q0 :: (List.range n).map (fun i => { q0 with qid := i, slot := none, pin := true }) } }
def failQ : Queue := { q0 with state := 2 }

theorem witness_QueueCommands :
    (∃ (s : State) (fn : Nat) (c : List Byte), c = (s.func fn).cmd ∧ Sys2Proof.CmdAt s fn 1 ∧ allZero c 32 32 = true ∧ leAt c 17 1 = 0 ∧ leAt c 4 2 < 4096 ∧ leAt c 6 2 < 4096 ∧ leAt c 8 8 % 4096 = 0 ∧
      leAt c 8 8 < 2 ^ 56 ∧ 6 ≤ leAt c 16 1 ∧ leAt c 16 1 ≤ 16 ∧ leAt c 18 2 < 2048 ∧ leAt c 20 4 < 2 ^ 20 ∧ leAt c 24 8 % 8 = 0 ∧ leAt c 24 8 < 2 ^ 56 ∧
      s.queue? fn (leAt c 4 2) = none ∧ s.liveCtx (leAt c 6 2) = true ∧ (s.getCtx (leAt c 6 2)).part = fn ∧
      ∃ s1 pa ip, translate s (.queue fn (leAt c 4 2)) controlCore (leAt c 6 2) (leAt c 24 8) .rmw = (s1, .ok pa ip)) ∧
    (∃ (s : State) (fn : Nat), Sys2Proof.CmdAt s fn 1 ∧ leAt (s.func fn).cmd 17 1 = 4) ∧
    (∃ (s : State) (fn : Nat) (c : List Byte) (q : Queue), c = (s.func fn).cmd ∧ Sys2Proof.CmdAt s fn 2 ∧ allZero c 6 58 = true ∧ leAt c 4 2 < 4096 ∧ s.queue? fn (leAt c 4 2) = some q ∧ q.part = fn ∧
      q.qid = leAt c 4 2 ∧ q.pasidv = false ∧ (q.state = 2 ∨ q.state = 0) ∧ q.accepted = [] ∧ ∃ s1 pa ip, q.xlate s q.idx .rmw = (s1, .ok pa ip)) ∧
    (∃ (s : State) (fn : Nat) (c : List Byte) (q : Queue), c = (s.func fn).cmd ∧ Sys2Proof.CmdAt s fn 3 ∧ allZero c 6 58 = true ∧ leAt c 4 2 < 4096 ∧ s.queue? fn (leAt c 4 2) = some q ∧ q.part = fn ∧
      q.qid = leAt c 4 2 ∧ q.state ≠ 3) ∧
    (∀ x ∈ [(0, 0, true), (1, 125, true), (1, 126, false)], ∃ (s : State) (fn : Nat) (c : List Byte) (q : Queue), c = (s.func fn).cmd ∧ Sys2Proof.CmdAt s fn 4 ∧ allZero c 6 2 = true ∧ allZero c 9 55 = true ∧
      leAt c 4 2 < 4096 ∧ s.queue? fn (leAt c 4 2) = some q ∧ q.part = fn ∧ q.qid = leAt c 4 2 ∧ q.state ≠ 3 ∧ leAt c 8 1 = x.1 ∧ q.pin = false ∧ pinRoom s fn = x.2.2) := by
  refine ⟨?_, ⟨cmdS 0 (qcB 4) noQ, 0, cmdAt (by decide +kernel), by decide +kernel⟩, ?_,
    ⟨cmdS 0 (nameB 3 0) (qS q0 [] 8 0), 0, _, q0, rfl, cmdAt (by decide +kernel), by decide +kernel⟩, ?_⟩
  · exact ⟨cmdS 0 (qcB 0) noQ, 0, qcB 0, by decide +kernel, cmdAt (by decide +kernel), by decide +kernel, by decide +kernel, by decide +kernel, by decide +kernel, by decide +kernel, by decide +kernel,
      by decide +kernel, by decide +kernel, by decide +kernel, by decide +kernel, by decide +kernel, by decide +kernel, by decide +kernel, by decide +kernel, by decide +kernel,
      okTrOf (by decide +kernel)⟩
  · exact ⟨cmdS 0 (nameB 2 0) (qS failQ [] 8 0), 0, nameB 2 0, failQ, by decide +kernel, cmdAt (by decide +kernel), by decide +kernel, by decide +kernel, by decide +kernel, rfl, by decide +kernel,
      rfl, .inl rfl, rfl, okTrOf (by decide +kernel)⟩
  · have h : ∀ x ∈ [(0, 0, true), (1, 125, true), (1, 126, false)], let s := cmdS 0 (nameB 4 x.1) (pinned x.2.1)
        cmdAtB s 0 4 = true ∧ (s.func 0).cmd = nameB 4 x.1 ∧ allZero (nameB 4 x.1) 6 2 = true ∧ allZero (nameB 4 x.1) 9 55 = true ∧ leAt (nameB 4 x.1) 4 2 = 4095 ∧ s.queue? 0 4095 = some q0 ∧
          leAt (nameB 4 x.1) 8 1 = x.1 ∧ pinRoom s 0 = x.2.2 := by decide +kernel
    intro x hx
    have g := h x hx
    exact ⟨_, 0, nameB 4 x.1, q0, g.2.1.symm, cmdAt g.1, g.2.2.1, g.2.2.2.1, by rw [g.2.2.2.2.1]; decide, by rw [g.2.2.2.2.1]; exact g.2.2.2.2.2.1, rfl, g.2.2.2.2.1.symm, by decide,
      g.2.2.2.2.2.2.1, rfl, g.2.2.2.2.2.2.2⟩

def fnS (c : List Byte) : State := cmdS 0 c opBase
def drainB (p : Nat) : List Byte := cmdB 5 (bytesOfNat 4 p)
def joinB : List Byte := cmdB 6 (bytesOfNat 4 17 ++ bytesOfNat 2 4095 ++ bytesOfNat 2 4096 ++ bytesOfNat 4 0xFFFFFFFF)
def pathB (port budget : Nat) : List Byte := cmdB 7 (bytesOfNat 4 9 ++ bytesOfNat 2 4095 ++ bytesOfNat 1 3 ++ bytesOfNat 1 1 ++ bytesOfNat 8 port ++ bytesOfNat 4 budget)
def partB : List Byte :=
  cmdB 8 (bytesOfNat 1 15 ++ bytesOfNat 3 0 ++ bytesOfNat 12 0xFF ++ bytesOfNat 32 0xFF ++ bytesOfNat 2 126 ++ bytesOfNat 2 4096)
def resetB (kind keep n : Nat) : List Byte := cmdB 9 (bytesOfNat 1 kind ++ bytesOfNat 1 keep ++ bytesOfNat 2 0 ++ bytesOfNat 2 n)
def timeB (t : Nat) : List Byte := cmdB 10 (bytesOfNat 4 0 ++ bytesOfNat 8 t)
/-- Port 11 with a link delay. -/
def delayS (d : Nat) (c : List Byte) : State := let s := fnS c; { s with fab := { s.fab with ports := s.fab.ports.map (fun (p : Port) => if p.port == 11 then { p with delay := d } else p) } }
def drS (reqs : List (Nat × Nat)) : State := { base with ctl := { base.ctl with draining := [(2 ^ 20 - 1, 0)], atsReqs := reqs } }
def pathPorts (c : List Byte) : List Nat := (List.range (leAt c 11 1)).map (fun i => leAt c (12 + i) 1)

theorem witness_DeviceCommands :
    (∃ (s : State) (fn : Nat) (c : List Byte), c = (s.func fn).cmd ∧ Sys2Proof.CmdAt s fn 5 ∧ allZero c 8 56 = true ∧ leAt c 4 4 < 2 ^ 20 ∧ ∀ d ∈ s.ctl.draining, d.1 ≠ leAt c 4 4) ∧
    (∃ (s : State) (fn : Nat) (c : List Byte), c = (s.func fn).cmd ∧ Sys2Proof.CmdAt s fn 5 ∧ allZero c 8 56 = true ∧ leAt c 4 4 < 2 ^ 20 ∧ ∃ d ∈ s.ctl.draining, d.1 = leAt c 4 4) ∧
    (∃ (s : State) (fn : Nat) (c : List Byte), c = (s.func fn).cmd ∧ Sys2Proof.CmdAt s fn 6 ∧ allZero c 16 48 = true ∧ leAt c 8 2 < leAt c 10 2 ∧ leAt c 10 2 = 4096 ∧ leAt c 12 4 ≠ 0 ∧ s.timebad = false ∧
      s.liveCtx (leAt c 4 4) = true ∧ (s.getCtx (leAt c 4 4)).part = fn ∧ (s.getCtx (leAt c 4 4)).gang = false ∧ jobCtx s (leAt c 12 4) = none) ∧
    (∃ (s : State) (fn : Nat) (c : List Byte), c = (s.func fn).cmd ∧ Sys2Proof.CmdAt s fn 6 ∧ allZero c 16 48 = true ∧ leAt c 8 2 < leAt c 10 2 ∧ leAt c 10 2 ≤ 4096 ∧ leAt c 12 4 ≠ 0 ∧ s.timebad = true) ∧
    (∀ x ∈ [(641, 0), (640, 256001), (640, 256000)], ∃ (s : State) (fn : Nat) (c : List Byte), c = (s.func fn).cmd ∧ Sys2Proof.CmdAt s fn 7 ∧ allZero c 24 40 = true ∧ leAt c 4 4 ≠ 0 ∧ leAt c 8 2 < 4096 ∧
      leAt c 10 1 ≤ 3 ∧ 1 ≤ leAt c 11 1 ∧ leAt c 11 1 ≤ 8 ∧ (∀ p ∈ pathPorts c, p < 12) ∧ s.timebad = false ∧ flightTime s (pathPorts c) = x.1 + 60 ∧
      portBudget s ((pathPorts c).headD 0) (leAt c 4 4) (leAt c 8 2) (leAt c 10 1) + leAt c 20 4 = x.2) ∧
    (∃ (s : State) (c : List Byte) (n : Nat), c = (s.func 0).cmd ∧ Sys2Proof.CmdAt s 0 8 ∧ leAt c 4 1 = 15 ∧ allZero c 5 3 = true ∧ allZero c 17 3 = true ∧ allZero c 53 1 = true ∧ allZero c 56 8 = true ∧
      BitVec.ofNat 72 (leAt c 8 9) ≠ 0 ∧ leAt c 54 2 = 4096 ∧ (∀ p ∈ s.ctl.partitions, p.part = 0) ∧ leAt c 52 1 = 126 ∧ (∀ x ∈ s.ctxs, x.part ≠ leAt c 4 1) ∧ n < 4096 ∧ s.liveCtx n = false ∧
      ∀ m < n, s.liveCtx m = true) ∧
    (∀ x ∈ [(1, 0, 287), (2, 0, 3), (3, 1, 0)], ∃ (s : State) (c : List Byte), c = (s.func 0).cmd ∧ Sys2Proof.CmdAt s 0 9 ∧ allZero c 6 2 = true ∧ allZero c 10 54 = true ∧ leAt c 4 1 = x.1 ∧ leAt c 5 1 = x.2.1 ∧
      leAt c 8 2 = x.2.2) ∧
    (∃ (s : State) (c : List Byte), c = (s.func 0).cmd ∧ Sys2Proof.CmdAt s 0 10 ∧ allZero c 4 4 = true ∧ allZero c 16 48 = true ∧ s.fab.ptpLocked = false ∧ s.fab.timesetDone = false ∧ s.now = leAt c 8 8) ∧
    (∃ (s : State) (c : List Byte), c = (s.func 0).cmd ∧ Sys2Proof.CmdAt s 0 10 ∧ allZero c 4 4 = true ∧ allZero c 16 48 = true ∧ s.fab.ptpLocked = false ∧ s.fab.timesetDone = false ∧
      leAt c 8 8 + 1 = s.now) ∧
    (∀ op, op = 8 ∨ op = 10 → ∃ (s : State) (fn : Nat), fn = 15 ∧ (s.func fn).go = true ∧ s.boot.phase = .running ∧ (s.func fn).cmd.length = 64 ∧ leAt (s.func fn).cmd 0 1 = op) ∧
    (∃ (s : State) (p : Nat), (∃ d ∈ s.ctl.draining, d.1 = p) ∧ (∀ e ∈ s.ctl.atsReqs, e.1 ≠ p) ∧ ∀ o ∈ s.mx.ops, o.pasid s ≠ some p) ∧
    (∃ (s : State) (p : Nat), (∃ d ∈ s.ctl.draining, d.1 = p) ∧ ∃ e ∈ s.ctl.atsReqs, e.1 = p) ∧
    (∃ (s : State) (p : Nat) (e : Nat × Nat), s.ctl.atsReqs.find? (fun e => e.1 == p) = some e ∧ ∃ d ∈ s.ctl.draining, d.1 = p) ∧
    ∃ (s : State) (p : Nat) (e : Nat × Nat), s.ctl.atsReqs.find? (fun e => e.1 == p) = some e ∧ ∀ d ∈ s.ctl.draining, d.1 ≠ p := by
  refine ⟨⟨fnS (drainB (2 ^ 20 - 1)), 0, drainB (2 ^ 20 - 1), by decide +kernel, cmdAt (by decide +kernel), by decide +kernel⟩,
    ⟨cmdS 0 (drainB (2 ^ 20 - 1)) (drS []), 0, drainB (2 ^ 20 - 1), by decide +kernel, cmdAt (by decide +kernel), by decide +kernel⟩,
    ⟨fnS joinB, 0, joinB, by decide +kernel, cmdAt (by decide +kernel), by decide +kernel⟩,
    ⟨(fnS joinB).updFunc 0 (fun f => { f with timebad := true }), 0, joinB, by decide +kernel, cmdAt (by decide +kernel), by decide +kernel⟩, ?_, ?_, ?_,
    ⟨{ fnS (timeB 5) with now := 5 }, timeB 5, by decide +kernel, cmdAt (by decide +kernel), by decide +kernel⟩,
    ⟨{ fnS (timeB 5) with now := 6 }, timeB 5, by decide +kernel, cmdAt (by decide +kernel), by decide +kernel⟩, ?_,
    ⟨drS [], 2 ^ 20 - 1, by decide +kernel⟩, ⟨drS [(2 ^ 20 - 1, 7)], 2 ^ 20 - 1, by decide +kernel⟩, ⟨drS [(2 ^ 20 - 1, 7)], 2 ^ 20 - 1, (2 ^ 20 - 1, 7), by decide +kernel⟩,
    ⟨drS [(5, 7)], 5, (5, 7), by decide +kernel⟩⟩
  · have h : ∀ x ∈ [(641, 0), (640, 256001), (640, 256000)], let s := delayS x.1 (pathB 11 x.2)
        (s.func 0).cmd = pathB 11 x.2 ∧ cmdAtB s 0 7 = true ∧ (allZero (pathB 11 x.2) 24 40 = true ∧ leAt (pathB 11 x.2) 4 4 ≠ 0 ∧ leAt (pathB 11 x.2) 8 2 < 4096 ∧ leAt (pathB 11 x.2) 10 1 ≤ 3 ∧
          1 ≤ leAt (pathB 11 x.2) 11 1 ∧ leAt (pathB 11 x.2) 11 1 ≤ 8 ∧ (∀ p ∈ pathPorts (pathB 11 x.2), p < 12) ∧ s.timebad = false ∧ flightTime s (pathPorts (pathB 11 x.2)) = x.1 + 60 ∧
          portBudget s ((pathPorts (pathB 11 x.2)).headD 0) (leAt (pathB 11 x.2) 4 4) (leAt (pathB 11 x.2) 8 2) (leAt (pathB 11 x.2) 10 1) + leAt (pathB 11 x.2) 20 4 = x.2) := by decide +kernel
    exact fun x hx => ⟨_, 0, _, (h x hx).1.symm, cmdAt (h x hx).2.1, (h x hx).2.2⟩
  · exact ⟨fnS partB, partB, 0, by decide +kernel, cmdAt (by decide +kernel), by decide +kernel⟩
  · have h : ∀ x ∈ [(1, 0, 287), (2, 0, 3), (3, 1, 0)], let s := fnS (resetB x.1 x.2.1 x.2.2)
        (s.func 0).cmd = resetB x.1 x.2.1 x.2.2 ∧ cmdAtB s 0 9 = true ∧ (allZero (resetB x.1 x.2.1 x.2.2) 6 2 = true ∧ allZero (resetB x.1 x.2.1 x.2.2) 10 54 = true ∧ leAt (resetB x.1 x.2.1 x.2.2) 4 1 = x.1 ∧
          leAt (resetB x.1 x.2.1 x.2.2) 5 1 = x.2.1 ∧ leAt (resetB x.1 x.2.1 x.2.2) 8 2 = x.2.2) := by decide +kernel
    exact fun x hx => ⟨_, _, (h x hx).1.symm, cmdAt (h x hx).2.1, (h x hx).2.2⟩
  · have h : ∀ op ∈ [8, 10], let s := cmdS 15 (cmdB op []) base
        (s.func 15).go = true ∧ s.boot.phase = .running ∧ (s.func 15).cmd.length = 64 ∧ leAt (s.func 15).cmd 0 1 = op := by decide +kernel
    exact fun op ho => ⟨_, 15, rfl, h op (by simpa using ho)⟩

/-! ## Attestation and host memory -/

def shellS (n : Nat) : State := withCtx (ctxB 18 2 0 0) { opBase with boot := { opBase.boot with sessions := n } }
def kbReq (shell : Nat) : KeybindReq := ⟨shell, 9, 1, 77⟩
def recS : State := { base with boot := { base.boot with phase := .recovery, meas := List.replicate 8 1 } }
def sessS (n : Nat) : State := { base with boot := { base.boot with sessions := n } }

theorem witness_AttestationAndHost :
    (∃ s : State, s.boot.phase = .running ∧ s.boot.sessions = 63 ∧ s.boot.meas.length = 8) ∧ (∃ s : State, s.boot.phase = .running ∧ s.boot.sessions = 64) ∧
    (∃ s : State, s.boot.phase = .recovery ∧ s.boot.fuse ≤ 5 ∧ s.boot.meas.length = 8) ∧ (∃ s : State, s.boot.phase = .recovery ∧ 0 < s.boot.fuse) ∧
    (∃ s : State, s.boot.sessions = 0) ∧ (∃ (s : State) (r : KeybindReq), s.boot.sessions ≠ 0 ∧ s.ctx? r.shell = none) ∧
    (∃ (s : State) (r : KeybindReq) (c : Ctx) (n : Nat), s.boot.sessions ≠ 0 ∧ s.ctx? r.shell = some c ∧ c.auth = 2 ∧ c.claimed = false ∧ c.run ≠ 7 ∧ c.image = none ∧ actBusy s r.shell = false ∧
      r.accept.toNat < 2 ∧ (c.tenant = 0 ∨ c.tenant = r.tenant.toNat) ∧ (∀ k ∈ s.ctl.keySlots, k.tenant ≠ r.tenant.toNat) ∧ freeKeySlot s c.part = some n) ∧
    (∃ (s : State) (addr : Nat) (data : List Byte), s.boot.phase = .running ∧ data ≠ [] ∧ addr + data.length = 0x18000000000 ∧
      ∀ i < data.length, s.vis.isOwned (sectorOf (addr + i)) = false) ∧
    ∃ (addr : Nat) (data : List Byte), hostBase ≤ addr ∧ data ≠ [] ∧ addr + data.length = 0x10000000000000 :=
  ⟨⟨sessS 63, by decide +kernel⟩, ⟨sessS 64, by decide +kernel⟩, ⟨recS, by decide +kernel⟩, ⟨{ recS with boot := { recS.boot with fuse := 1 } }, by decide +kernel⟩, ⟨sessS 0, by decide +kernel⟩,
   ⟨shellS 1, kbReq 4095, by decide +kernel⟩, ⟨shellS 1, kbReq 18, ctxB 18 2 0 0, 0, by decide +kernel⟩,
   ⟨base, 0x17FFFFFFFFE, [1, 2], by decide +kernel⟩, ⟨0xFFFFFFFFFFFFF, [1], by decide +kernel⟩⟩

/-! ## The machine as a whole -/

theorem nextSome {o : Host.Outcome State Fault Refusal} (h : (nextOf o).isSome = true) : ∃ t, o = .next t := by
  cases o with
  | next t => exact ⟨t, rfl⟩
  | fault f => cases h
  | refused r => cases h

theorem witness_MemoryStaysCanonical : ∃ s t : State, MemInv s ∧ s.mem ≠ [] ∧ step s = .next t := by
  obtain ⟨t, h⟩ := nextSome (o := step (stand (.mov vf))) (by decide +kernel)
  exact ⟨stand (.mov vf), t, by unfold MemInv Memory.wf; decide +kernel, by decide +kernel, h⟩

/-- The word that is fetched decodes as `P` says. -/
def fetched (P : DWord → Bool) (x : State × (Tr ⊕ DWord)) : Bool := match x.2 with | .inr w => P w | .inl _ => false
theorem fetchedOf {P : DWord → Bool} {x : State × (Tr ⊕ DWord)} (h : fetched P x = true) : ∃ s w, x = (s, .inr w) ∧ P w = true := by
  obtain ⟨s, y⟩ := x
  cases y with
  | inl t => cases h
  | inr w => exact ⟨s, w, rfl, h⟩
def decodesTo (i : Instr) (w : DWord) : Bool :=
  match decode w with
  | .ok j => j == i
  | .reserved j => j == i
  | .opcode => false
  | .tagInSlot => false
theorem decodesOf {i : Instr} {w : DWord} (h : decodesTo i w = true) : decode w = .ok i ∨ decode w = .reserved i := by
  unfold decodesTo at h
  split at h <;> simp_all

def spOf (s : State) : Split := ((s.getGroup 1).split? 0).getD default
def pgOf (s : State) : Prog := (s.prog? 0 true).getD default
def badMul : Instr := .imul { v2f with sat := true }
def sfS : State := stand (.sfence ⟨.v 0, .v 0, .v 0, 0, 0⟩)

theorem witness_StepRunsDecoded :
    (∀ i, i = .mov vf ∨ i = badMul → ∃ (s s1 : State) (gid e : Nat) (g : Group) (sp : Split) (c : Clause) (w : DWord), s.agenda = [] ∧ s.cur = some (.split gid e) ∧
      s.group? gid = some g ∧ g.split? e = some sp ∧ sp.st = .mid ∧ sp.clause = some c ∧ c.atHdr = false ∧ g.resident = true ∧ g.halted = false ∧
      splitReady s g e sp = true ∧ fetchCode s g e (if c.handler then 0 else c.plane) (c.off + 8 * (c.slot + 1)) = (s1, .inr w) ∧ (decode w = .ok i ∨ decode w = .reserved i)) ∧
    (∃ (s s1 : State) (cl : Nat) (isSeq : Bool) (p : Prog) (c : Clause) (w : DWord) (i : Instr), s.agenda = [] ∧ s.cur = some (if isSeq then .seq cl else .eng cl) ∧
      s.prog? cl isSeq = some p ∧ p.live = true ∧ p.stopped = false ∧ stallStands s (.unit (if isSeq then .seq cl else .eng cl)) = none ∧ p.park = none ∧
      p.clause = some c ∧ fetchProg s p (c.off + 8 * (c.slot + 1)) = (s1, .inr w) ∧ (decode w = .ok i ∨ decode w = .reserved i)) ∧
    ∃ (s : State) (t : Turn) (ts : List Turn) (i : Instr), s.agenda = t :: ts ∧ t.who = .event i ∧ i.isSlot = false ∧ i ≠ .clauseIssue := by
  refine ⟨?_, ?_, ⟨{ base with agenda := [⟨5, 5, [], .event .bucketTick⟩] }, ⟨5, 5, [], .event .bucketTick⟩, [], .bucketTick, rfl, rfl, rfl, nofun⟩⟩
  · intro i hi
    have h : ∀ i ∈ [Instr.mov vf, badMul], (stand i).agenda = [] ∧ (stand i).cur = some (.split 1 0) ∧ (stand i).group? 1 = some ((stand i).getGroup 1) ∧
        ((stand i).getGroup 1).split? 0 = some (spOf (stand i)) ∧ (spOf (stand i)).st = .mid ∧ (spOf (stand i)).clause = some ((spOf (stand i)).clause.getD default) ∧
        ((spOf (stand i)).clause.getD default).atHdr = false ∧ ((stand i).getGroup 1).resident = true ∧ ((stand i).getGroup 1).halted = false ∧
        splitReady (stand i) ((stand i).getGroup 1) 0 (spOf (stand i)) = true := by decide +kernel
    have hf : ∀ i ∈ [Instr.mov vf, badMul], fetched (decodesTo i) (fetchCode (stand i) ((stand i).getGroup 1) 0
        (if ((spOf (stand i)).clause.getD default).handler then 0 else ((spOf (stand i)).clause.getD default).plane)
        (((spOf (stand i)).clause.getD default).off + 8 * (((spOf (stand i)).clause.getD default).slot + 1))) = true := by decide +kernel
    have hm : i ∈ [Instr.mov vf, badMul] := by simpa using hi
    obtain ⟨s1, w, e, d⟩ := fetchedOf (hf i hm)
    have g := h i hm
    exact ⟨stand i, s1, 1, 0, _, _, _, w, g.1, g.2.1, g.2.2.1, g.2.2.2.1, g.2.2.2.2.1, g.2.2.2.2.2.1, g.2.2.2.2.2.2.1, g.2.2.2.2.2.2.2.1, g.2.2.2.2.2.2.2.2.1, g.2.2.2.2.2.2.2.2.2, e, decodesOf d⟩
  · obtain ⟨s1, w, e, d⟩ := fetchedOf (P := decodesTo (.sfence ⟨.v 0, .v 0, .v 0, 0, 0⟩))
      (x := fetchProg sfS (pgOf sfS) (((pgOf sfS).clause.getD default).off + 8 * (((pgOf sfS).clause.getD default).slot + 1))) (by decide +kernel)
    exact ⟨sfS, s1, 0, true, pgOf sfS, (pgOf sfS).clause.getD default, w, _, by decide +kernel, by decide +kernel, by decide +kernel, by decide +kernel, by decide +kernel, by decide +kernel,
      by decide +kernel, by decide +kernel, e, decodesOf d⟩

def farMov : Instr := .mov { vf with a := .v 255 }
/-- The slot of MOV with another instruction in it. -/
def kWith (i : Instr) : SlotCtx := { slotOf (stand (.mov vf)) (.mov vf) with i := i }
abbrev ClsOk (k : SlotCtx) : Prop := (k.classFits && classOk k.cls k.sp.handler.isSome k.i) = true
abbrev PlaceOk (k : SlotCtx) : Prop := slotOk k.i k.c.slot k.c.count = true
abbrev ResOk (k : SlotCtx) : Prop := (k.i.wellFormed && classFieldsOk k.cls k.i) = true
abbrev RightsFit (k : SlotCtx) (auth : Nat) : Prop := rightsOk auth (majorOf (encode k.i)) = true
abbrev LatchFit (k : SlotCtx) : Prop := latchOk k.i k.g.hdr.width k.c.slot = true
abbrev BoundsFit (k : SlotCtx) : Prop := boundsOk k.i k.g.hdr.width k.g.vregs (if k.isProg then 32 else 128) = true
/-- A clause of two slots. -/
def twoSlots (c : Clause) : Clause := { c with hdr := c.hdr ||| (0x0010000000000000 : DWord) }

theorem witness_SlotChecks :
    (∃ (s : State) (k : SlotCtx) (i : Instr) (cause : Cause) (sub : Nat), i.isSlot = true ∧ (∀ f, i ≠ .bsad4 f) ∧ slotCtx s i = some k ∧ isSplit k.u = true ∧
      slotChecks k (s.getCtx k.ctx).auth = some (cause, sub)) ∧
    (∃ k, ¬ ClsOk k) ∧ (∃ k, ClsOk k ∧ ¬ PlaceOk k) ∧ (∃ k, ClsOk k ∧ PlaceOk k ∧ ¬ ResOk k) ∧ (∃ k auth, ClsOk k ∧ PlaceOk k ∧ ResOk k ∧ ¬ RightsFit k auth) ∧
    (∃ k auth, ClsOk k ∧ PlaceOk k ∧ ResOk k ∧ RightsFit k auth ∧ ¬ LatchFit k) ∧ (∃ k auth, ClsOk k ∧ PlaceOk k ∧ ResOk k ∧ RightsFit k auth ∧ LatchFit k ∧ ¬ BoundsFit k) ∧
    (∃ k auth, ClsOk k ∧ PlaceOk k ∧ ResOk k ∧ RightsFit k auth ∧ LatchFit k ∧ BoundsFit k) ∧ (∃ m : Nat, m = 0xD4 ∨ m = 0xD5 ∨ m = 0xD9) ∧ ∃ m : Nat, m = 0xD6 :=
  ⟨⟨stand farMov, slotOf (stand farMov) farMov, farMov, .bounds, 0, by decide, (fun _ h => by cases h), ctxSome (by decide +kernel), by decide +kernel, by decide +kernel⟩,
   ⟨kWith (.place yf), by decide +kernel⟩, ⟨{ kWith (.sleep { vf with dst := .zero, a := .const 17 }) with c := twoSlots (kWith (.mov vf)).c }, by decide +kernel⟩, ⟨kWith badMul, by decide +kernel⟩,
   ⟨{ kWith (.place yf) with cls := .system }, 2, by decide +kernel⟩, ⟨kWith (.mov { vf with a := .latch 0 }), 2, by decide +kernel⟩, ⟨kWith farMov, 2, by decide +kernel⟩,
   ⟨kWith (.mov vf), 2, by decide +kernel⟩, ⟨0xD9, by decide⟩, ⟨0xD6, rfl⟩⟩

def readyB (s : State) (gid e : Nat) (sp : Split) (b : List Byte) : Bool :=
  match frameWay s gid e sp b with
  | (s1, .ready _) => decide (s1.group? gid = s.group? gid) && (match (frameWay s1 gid e sp b).2 with
    | .ready _ => true
    | _ => false)
  | _ => false
theorem readyOf {s : State} {gid e : Nat} {sp : Split} {b : List Byte} (h : readyB s gid e sp b = true) :
    ∃ s1 l0 l, frameWay s gid e sp b = (s1, .ready l0) ∧ s1.group? gid = s.group? gid ∧ (frameWay s1 gid e sp b).2 = .ready l := by
  unfold readyB at h
  split at h
  · rename_i s1 l0 e1
    simp only [Bool.and_eq_true, decide_eq_true_eq] at h
    obtain ⟨h1, h2⟩ := h
    split at h2
    · rename_i l e2
      exact ⟨s1, l0, l, e1, h1, e2⟩
    · cases h2
  · cases h
def tvS (tv : Word) : State := base.updCtx 16 (fun c => { c with tvec := tv })
def lateTrap : Trap := ⟨0, [(3, ⟨.bounds, 0, 0⟩)]⟩
def standC : Clause := (spOf base).clause.getD default
def infoOf (t : Trap) (c : Clause) (own : Nat) : FrameInfo := { trap := t, hdr := false, word := 7, hword := c.hdr, own := own, splitsv := false, code := t.code }

theorem witness_TrapEntry :
    (∃ (s s1 : State) (gid entry : Nat) (c : Clause) (t : Trap) (g : Group) (sp : Split) (fi : FrameInfo) (l0 l : List (Nat × Nat × Nat × List Byte)),
      fi = infoOf t c 2 ∧ s.group? gid = some g ∧ g.split? entry = some sp ∧ entry < g.splits.length ∧ g.latchesDue c.issue = false ∧
      frameWay s gid entry sp (frameBytes g sp entry c fi) = (s1, .ready l0) ∧ s1.group? gid = some g ∧ (frameWay s1 gid entry sp (frameBytes g sp entry c fi)).2 = .ready l) ∧
    (∃ (g : Group) (sp : Split) (fi : FrameInfo) (l : Nat), g.hdr.width = 128 ∧ fi.code < 256 ∧ fi.trap.sub < 256 ∧ l < g.hdr.width ∧ sp.mask.getLsbD l = false) ∧
    (∃ (s : State) (gid entry : Nat) (c : Clause) (g : Group) (sp : Split), s.group? gid = some g ∧ g.split? entry = some sp ∧ g.latchesDue c.issue = false ∧ sp.handler.isSome = true) ∧
    (∃ (s : State) (gid entry : Nat) (c : Clause) (g : Group) (sp : Split), s.group? gid = some g ∧ g.split? entry = some sp ∧ g.latchesDue c.issue = false ∧ (s.getCtx g.ctx).tvec.getLsbD 0 = false) ∧
    (∃ (s : State) (gid entry : Nat) (c : Clause) (g : Group) (sp : Split), s.group? gid = some g ∧ g.split? entry = some sp ∧ g.latchesDue c.issue = false ∧
      g.spillLim + 1 = (entry + 1) * (4096 + 256 * g.hdr.width)) ∧
    ∃ (s : State) (gid : Nat) (g : Group), s.group? gid = some g ∧ s.ctx? g.ctx = some (s.getCtx g.ctx) := by
  refine ⟨?_, ⟨{ (default : Group) with hdr := { (default : LaunchHdr) with width := 128 } }, { (default : Split) with mask := 1 }, infoOf lateTrap standC 2, 127, rfl, by decide +kernel, by decide +kernel,
      by decide, by decide⟩,
    ⟨inHandler base, 1, 0, standC, _, spOf (inHandler base), rfl, by decide +kernel, by decide +kernel, by decide +kernel⟩,
    ⟨tvS 0x100, 1, 0, standC, (tvS 0x100).getGroup 1, spOf base, by decide +kernel, by decide +kernel, by decide +kernel, by decide +kernel⟩,
    ⟨State.grp (tvS 0x101) (fun g => { g with spillLim := 8191 }), 1, 0, standC, (State.grp (tvS 0x101) (fun g => { g with spillLim := 8191 })).getGroup 1, spOf base, by decide +kernel, by decide +kernel,
      by decide +kernel, by decide +kernel⟩,
    ⟨base, 1, base.getGroup 1, by decide +kernel⟩⟩
  have hg : (tvS 0x101).group? 1 = some ((tvS 0x101).getGroup 1) := by decide +kernel
  obtain ⟨s1, l0, l, e1, e2, e3⟩ := readyOf (s := tvS 0x101) (gid := 1) (e := 0) (sp := spOf base) (b := frameBytes ((tvS 0x101).getGroup 1) (spOf base) 0 standC (infoOf lateTrap standC 2)) (by decide +kernel)
  exact ⟨tvS 0x101, s1, 1, 0, standC, lateTrap, (tvS 0x101).getGroup 1, spOf base, _, l0, l, rfl, hg, by decide +kernel, by decide +kernel, by decide +kernel, e1, e2.trans hg, e3⟩

theorem witness_SlotResults :
    (∀ i ∈ [Instr.mov vf, .mov { vf with dst := .zero }, .mov { vf with dst := ⟨false, true, 127⟩ }, .icmp .eq { v2f with dst := ⟨false, true, 7⟩ }, .icmp .eq { v2f with dst := ⟨false, true, 6⟩ }, .nop v0f],
      ∃ (s : State) (k : SlotCtx) (r : List (Nat × List Word)) (g : Group), k.i = i ∧ isSplit k.u = true ∧ s.group? k.gid = some g ∧ g.hdr.width ≠ 0 ∧
        (∀ x ∈ r, x.1 < g.hdr.width) ∧ (r.map (fun x => x.1)).Nodup ∧ r ≠ []) ∧
    ∃ (s : State) (k : SlotCtx) (g : Group) (sp : Split) (c : Clause), isSplit k.u = true ∧ s.group? k.gid = some g ∧ g.split? k.entry = some sp ∧ k.entry < g.splits.length ∧
      sp.clause = some c ∧ c.slot < hdrCount c.hdr := by
  refine ⟨fun i _ => ⟨base, kWith i, [(0, [1]), (15, [2])], base.getGroup 1, rfl, ?_, ?_, ?_, ?_, by decide, nofun⟩, ?_⟩
  · exact (by decide +kernel : isSplit (kWith (.mov vf)).u = true)
  · exact (by decide +kernel : base.group? (kWith (.mov vf)).gid = some (base.getGroup 1))
  · decide +kernel
  · decide +kernel
  · let s := State.grp base (fun g => { g with splits := g.splits.map (fun x => x.map (fun sp => { sp with clause := sp.clause.map twoSlots })) })
    exact ⟨s, kWith (.mov vf), s.getGroup 1, spOf s, (spOf s).clause.getD default, by decide +kernel⟩

/-- The instructions of one word a lane, one of each shape, with a slot to follow. -/
def shapes : List Instr :=
  [.iadd .wrap v2f, .icmp .eq { v2f with dst := ⟨false, true, 6⟩ }, .movi ⟨⟨false, false, 63⟩, .v 0, 0xFFFFFFFF⟩, .plop { vf with dst := ⟨false, true, 7⟩, a := .v 0, b := .v 0, c := .v 0 }, .dot4 .s v3f,
   .redux .add { vf with dst := ⟨false, true, 127⟩ }, .bfe .s { v2f with dst := .zero }, .fadd v2f, .frcp vf]
def shapeS (i : Instr) : State := State.grp (stand i) (fun g => { g with splits := g.splits.map (fun x => x.map (fun sp => { sp with clause := sp.clause.map twoSlots })) })

theorem witness_ResultsAreAllThatChanges : ∀ i ∈ shapes, ∃ (s t : State) (k : SlotCtx) (d : Dst), Sys2Proof.resultOnly i = true ∧ resDst i = some d ∧ AtSlot s i k ∧ isSplit k.u = true ∧
    indexFits i k s ∧ (fmtXTrap k.c.fmt = true → ∀ f, floatResult i = some f → ∀ l ∈ k.lanes, (f k s l).flags % 4 = 0) ∧ k.c.slot < hdrCount k.c.hdr ∧ k.entry < k.g.splits.length ∧
    k.g.hdr.width ≠ 0 ∧ (∀ l ∈ k.lanes, l < k.g.hdr.width) ∧ exec i s = .next t := by
  have h : ∀ i ∈ shapes, Sys2Proof.resultOnly i = true ∧ resDst i = some ((resDst i).getD .zero) ∧ atSlotB (shapeS i) i = true ∧ isSplit (slotOf (shapeS i) i).u = true ∧
      fmtXTrap (slotOf (shapeS i) i).c.fmt = false ∧ (slotOf (shapeS i) i).c.slot < hdrCount (slotOf (shapeS i) i).c.hdr ∧ (slotOf (shapeS i) i).entry < (slotOf (shapeS i) i).g.splits.length ∧
      (slotOf (shapeS i) i).g.hdr.width ≠ 0 ∧ (∀ l ∈ (slotOf (shapeS i) i).lanes, l < (slotOf (shapeS i) i).g.hdr.width) ∧ (nextOf (exec i (shapeS i))).isSome = true := by decide +kernel
  have hf : ∀ i ∈ shapes, indexFits i (slotOf (shapeS i) i) (shapeS i) := by
    intro i hi
    simp only [shapes, List.mem_cons, List.not_mem_nil, or_false] at hi
    rcases hi with rfl | rfl | rfl | rfl | rfl | rfl | rfl | rfl | rfl <;> exact trivial
  intro i hi
  have g := h i hi
  obtain ⟨t, e⟩ := nextSome g.2.2.2.2.2.2.2.2.2
  exact ⟨shapeS i, t, slotOf (shapeS i) i, _, g.1, g.2.1, atSlot g.2.2.1, g.2.2.2.1, hf i hi, fun x => absurd x (by rw [g.2.2.2.2.1]; decide), g.2.2.2.2.2.1, g.2.2.2.2.2.2.1,
    g.2.2.2.2.2.2.2.1, g.2.2.2.2.2.2.2.2.1, e⟩
end Sys2Proof.Tests
end

section
/-! SUPPORT. What a slot does whose checks fail or whose effect traps (R51, R297), and lanes that answer or trap. -/

namespace Sys2Proof.Machine

theorem isSplit_iff {u : UnitRef} : isSplit u = true ↔ ∃ gid entry, u = .split gid entry := by
  cases u <;> simp [isSplit]

/-- Every slot instruction but the reserved one runs through `slotStep`. -/
theorem exec_eq_slotStep {i : Instr} (hs : i.isSlot = true) (hb : ∀ f, i ≠ .bsad4 f) :
    ∃ eff, ∀ s, exec i s = slotStep i eff s := by
  cases i <;> cases hs
  case bsad4 f => exact absurd rfl (hb f)
  all_goals exact ⟨_, fun _ => rfl⟩

/-- A failed check traps the whole split, whatever the instruction's effect. -/
theorem slotStep_refused {s : State} {i : Instr} {k : SlotCtx} {eff : SlotCtx → State → Out} {cause : Cause} {sub : Nat}
    (h : slotCtx s i = some k) (hu : isSplit k.u = true) (hc : slotChecks k (s.getCtx k.ctx).auth = some (cause, sub)) :
    slotStep i eff s = .next (settleAll (trapWhole (entered s k) k.gid k.entry false (enteredCtx s k).c (encode i)
      (trapAll k.sp.mask cause sub)) k.gid) := by
  obtain ⟨gid, entry, hu⟩ := isSplit_iff.1 hu
  simp only [slotStep, h, runUnit, runSlot, entered, enteredCtx, hu, hc, slotCtx_i h]

/-- A split whose effect traps: the lanes of the trap stop, whatever the effect did to the state. -/
theorem slotStep_trap {s t : State} {i : Instr} {k : SlotCtx} {eff : SlotCtx → State → Out} {r : List (Nat × List Word)} {tr : Trap}
    (h : AtSlot s i k) (hu : isSplit k.u = true) (he : eff (enteredCtx s k) (entered s k) = .trap t r tr) :
    ∃ c, slotStep i eff s = .next (trapAt (entered s k) (enteredCtx s k) tr c) := by
  obtain ⟨hk, hc, hw⟩ := h
  obtain ⟨gid, entry, hu⟩ := isSplit_iff.1 hu
  simp only [entered, enteredCtx, hu] at he
  simp only [slotStep, hk, runUnit, runSlot, hu, hc, hw, trapAt, entered, enteredCtx, Bool.false_eq_true, if_false]
  simp only [he]
  exact ⟨_, rfl⟩

/-- The checks of R51, each with the trap it raises, in their order. -/
theorem slotChecks_eq (k : SlotCtx) (auth : Nat) : slotChecks k auth =
    if !(k.classFits && classOk k.cls k.sp.handler.isSome k.i) then some (.illegalOp, 1)
    else if !slotOk k.i k.c.slot k.c.count then some (.illegalOp, 4)
    else if !(k.i.wellFormed && classFieldsOk k.cls k.i) then some (.reservedField, 0)
    else if !rightsOk auth (majorOf (encode k.i)) then some (.rights, 0)
    else if !latchOk k.i k.g.hdr.width k.c.slot then some (.latchOrder, 0)
    else if !boundsOk k.i k.g.hdr.width k.g.vregs (if k.isProg then 32 else 128) then some (.bounds, 0)
    else none := by
  simp only [slotChecks, Bool.not_and]

/-! ## Lanes that answer and lanes that trap -/

theorem entered_rd64 {s : State} {i : Instr} {k : SlotCtx} (h : slotCtx s i = some k) (x : Src) (l : Nat) :
    (enteredCtx s k).rd64 (entered s k) x l = k.rd64 s x l := by
  simp only [SlotCtx.rd64, entered_word h]

/-- The answers of lanes that all have one. -/
theorem filterMap_answers {α β : Type} (val : Nat → Option α) (w : α → β) (d : α) (ls : List Nat) (h : ∀ l ∈ ls, (val l).isSome = true) :
    ls.filterMap (fun l => (val l).map (fun v => (l, w v))) = ls.map (fun l => (l, w ((val l).getD d))) := by
  induction ls with
  | nil => rfl
  | cons l ls ih =>
    obtain ⟨v, hv⟩ := Option.isSome_iff_exists.1 (h l List.mem_cons_self)
    have hls := ih fun a ha => h a (List.mem_cons_of_mem l ha)
    simp only [List.filterMap_cons, List.map_cons, hv, Option.map_some, Option.getD_some, hls]

/-- Every lane has an answer: the slot completes with them. -/
theorem outFaults_answers {α : Type} (s : State) (ls : List Nat) (val : Nat → Option α) (w : α → List Word) (d : α) (c : Cause)
    (h : ∀ l ∈ ls, (val l).isSome = true) :
    outFaults s (ls.filterMap (fun l => (val l).map (fun v => (l, w v)))) ((ls.filter (fun l => (val l).isNone)).map (fun l => lanesFault l c)) =
      .done s (ls.map (fun l => (l, w ((val l).getD d)))) := by
  have hn : ls.filter (fun l => (val l).isNone) = [] := by
    rw [List.filter_eq_nil_iff]
    intro l hl
    simp [Option.isSome_iff_ne_none.1 (h l hl)]
  rw [hn, filterMap_answers val w d ls h]
  rfl

/-- Some lane has no answer: the lanes without one trap. -/
theorem outFaults_unanswered {α : Type} (s : State) (r : List (Nat × List Word)) (ls : List Nat) (val : Nat → Option α) (c : Cause)
    (h : ∃ l ∈ ls, val l = none) :
    outFaults s r ((ls.filter (fun l => (val l).isNone)).map (fun l => lanesFault l c)) =
      .trap s r ⟨0, (ls.filter (fun l => (val l).isNone)).map (fun l => (l, ⟨c, 0, 0⟩))⟩ := by
  obtain ⟨l, hl, hv⟩ := h
  have hne : ((ls.filter (fun l => (val l).isNone)).map (fun l => lanesFault l c)).isEmpty = false := by
    simpa using ⟨l, hl, hv⟩
  unfold outFaults
  rw [hne]
  rfl

end Sys2Proof.Machine
end

section
/-! SUPPORT. Looking up a context, and what counting, translating, storing and posting leave of it (R16, R20, R23, R200, R286, R295). -/

namespace Sys2Proof.Machine

/-! ## Looking up a context -/

theorem ctx?_num {s : State} {n : Nat} {c : Ctx} (h : s.ctx? n = some c) : c.num = n := by
  simpa using List.find?_some h

theorem getCtx_of {s : State} {n : Nat} {c : Ctx} (h : s.ctx? n = some c) : s.getCtx n = c := by
  simp [State.getCtx, h]

theorem ctx?_of_liveCtx {s : State} {c : Nat} (h : s.liveCtx c = true) : s.ctx? c = some (s.getCtx c) := by
  unfold State.liveCtx at h
  split at h
  · rename_i x hx
    simp [State.getCtx, hx]
  · cases h

theorem getCtx_updCtx {s : State} {c : Nat} {f : Ctx → Ctx} {x : Ctx} (h : s.ctx? c = some x) (hf : ∀ y, (f y).num = y.num) :
    (s.updCtx c f).getCtx c = f x := by
  simp [State.getCtx, State.updCtx_ctx s c c f hf, h, ctx?_num h]

/-! ## What contexts hold -/

/-- A context without its counters. -/
def Ctx.plain (c : Ctx) : Ctx := { c with counters := [] }

/-- The contexts of a state, their counters apart, and what each holds: groups, blocks, queues, engine operations. -/
structure Holdings where
  ctxs : List Ctx
  groups : List Nat
  blocks : List Block
  queues : List Queue
  ops : List EOp

def State.holdings (s : State) : Holdings := ⟨s.ctxs.map Ctx.plain, s.groups.map Group.ctx, s.blocks, s.ctl.queues, s.mx.ops⟩

/-! ## Looking up a context where the holdings are the same -/

theorem ctx?_map_plain (s : State) (n : Nat) : (s.ctx? n).map Ctx.plain = s.holdings.ctxs.find? (fun c => c.num == n) := by
  unfold State.ctx? State.holdings
  rw [List.find?_map]
  rfl

theorem getCtx_plain (s : State) (n : Nat) : (s.getCtx n).plain = ((s.ctx? n).map Ctx.plain).getD (default : Ctx).plain := by
  unfold State.getCtx
  cases s.ctx? n <;> rfl

theorem getCtx_congr {s t : State} (h : t.holdings = s.holdings) (n : Nat) : (t.getCtx n).plain = (s.getCtx n).plain := by
  rw [getCtx_plain, getCtx_plain, ctx?_map_plain, ctx?_map_plain, h]

theorem ctx?_congr {s t : State} (h : t.holdings = s.holdings) {n : Nat} {c : Ctx} (hc : s.ctx? n = some c) :
    ∃ c', t.ctx? n = some c' ∧ c'.plain = c.plain := by
  have e : (t.ctx? n).map Ctx.plain = (s.ctx? n).map Ctx.plain := by rw [ctx?_map_plain, ctx?_map_plain, h]
  rw [hc, Option.map_some, Option.map_eq_some_iff] at e
  exact e

/-! ## Steps that change no holding -/

theorem map_updWhere {α β : Type} (p : α → Bool) (f : α → α) (g : α → β) (h : ∀ x, g (f x) = g x) (l : List α) :
    (updWhere p f l).map g = l.map g := by
  simp only [updWhere, List.map_map, List.map_inj_left, Function.comp_apply]
  intro x _
  split
  · exact h x
  · rfl

theorem holdings_foldl {α : Type} (f : State → α → State) (hf : ∀ s a, (f s a).holdings = s.holdings) (l : List α) (s : State) :
    (l.foldl f s).holdings = s.holdings :=
  foldl_keeps (fun t => t.holdings = s.holdings) f (fun t a h => (hf t a).trans h) l s rfl

@[simp] theorem holdings_count (s : State) (ctx i n : Nat) : (s.count ctx i n).holdings = s.holdings := by
  have h : (s.count ctx i n).ctxs.map Ctx.plain = s.ctxs.map Ctx.plain := map_updWhere _ _ Ctx.plain (by exact fun _ => rfl) _
  simp only [State.holdings, h, State.count_groups, State.count_blocks, State.count_ctl, State.count_mx]

theorem holdings_updGroup (s : State) (gid : Nat) (f : Group → Group) (hf : ∀ g, (f g).ctx = g.ctx) : (s.updGroup gid f).holdings = s.holdings := by
  have h : (s.updGroup gid f).groups.map Group.ctx = s.groups.map Group.ctx := map_updWhere _ _ _ hf _
  simp only [State.holdings, h, State.updGroup_ctxs, State.updGroup_blocks, State.updGroup_ctl, State.updGroup_mx]

@[simp] theorem holdings_fireMonitors (s : State) (sec : Nat) : (fireMonitors s sec).holdings = s.holdings :=
  holdings_foldl _ (fun s _ => holdings_updGroup s _ _ (by exact fun _ => rfl)) _ s

@[simp] theorem holdings_breakResv (s : State) (sec : Nat) (w : Option (Nat × Nat)) : (breakResv s sec w).holdings = s.holdings :=
  holdings_foldl _ (fun s _ => holdings_updGroup s _ _ (by exact fun _ => rfl)) _ s

@[simp] theorem holdings_homeCommit (s : State) (w : Option (Nat × Nat)) (c : Option Nat) (sec : Nat) (d : List (Nat × Byte)) :
    (homeCommit s w c sec d).holdings = s.holdings := by
  unfold homeCommit
  rw [holdings_fireMonitors, holdings_breakResv]
  rfl

@[simp] theorem holdings_devWrite (s : State) (pa : Nat) (bs : List Byte) : (devWrite s pa bs).holdings = s.holdings := by
  unfold devWrite
  exact holdings_foldl _ (fun s _ => holdings_homeCommit s none none _ _) _ s

@[simp] theorem holdings_claimFrames (s : State) (frame n owner : Nat) : (claimFrames s frame n owner).holdings = s.holdings := by
  refine holdings_foldl _ (fun s i => ?_) _ s
  dsimp only
  split <;> rfl

@[simp] theorem holdings_stage2 (s : State) (core ctx ia : Nat) (acc : Access) : (stage2 s core ctx ia acc).1.holdings = s.holdings := by
  unfold stage2
  dsimp only
  split
  · split
    · rfl
    · split <;> rfl
  · split
    · rfl
    · split
      · split
        · rfl
        · split
          · rfl
          · split <;> exact holdings_claimFrames s _ _ _
      · rfl
      · rfl

@[simp] theorem holdings_walk1 (core ctx va : Nat) (acc : Access) :
    ∀ (fuel l table : Nat) (s : State), (walk1 core ctx va acc fuel l table s).1.holdings = s.holdings
  | 0, _, _, s => rfl
  | fuel + 1, l, table, s => by
    unfold walk1
    dsimp only
    have h := holdings_stage2 s core ctx (table + 8 * bitsOf va (level false l).lo (level false l).n) .read
    split
    · exact h
    · exact h
    · exact h
    · split
      · exact h
      · split
        · exact h
        · exact (holdings_walk1 core ctx va acc fuel (l + 1) _ _).trans h

@[simp] theorem holdings_stage1 (s : State) (core ctx va : Nat) (acc : Access) : (stage1 s core ctx va acc).1.holdings = s.holdings := by
  unfold stage1
  dsimp only
  have h := holdings_walk1 core ctx va acc 5 0 (s.getCtx ctx).s1root.toNat s
  split
  · split <;> rfl
  · split
    · rfl
    · split
      · exact h
      · split
        · exact h
        · split <;> exact h

@[simp] theorem holdings_translateRaw (s : State) (core ctx va : Nat) (acc : Access) : (translateRaw s core ctx va acc).1.holdings = s.holdings := by
  unfold translateRaw
  dsimp only
  split
  · exact holdings_stage1 s core ctx va acc
  · split <;> exact (holdings_stage2 ..).trans (holdings_stage1 ..)

@[simp] theorem holdings_markDirty (s : State) (ctx ipage : Nat) : (markDirty s ctx ipage).1.holdings = s.holdings := by
  unfold markDirty
  split
  · split <;> rfl
  · rfl

@[simp] theorem holdings_reach (ctx va : Nat) (acc : Access) (s : State) (off : Nat) : (reach ctx va acc s off).1.holdings = s.holdings := by
  unfold reach
  dsimp only
  split
  · split
    · exact (holdings_markDirty _ ctx _).trans (holdings_translateRaw ..)
    · exact holdings_translateRaw ..
  · exact holdings_translateRaw ..

/-- A log's record and its header are the device's own stores. -/
theorem holdings_logAppend (s : State) (tr : State → Nat → State × Option Nat) (rec : List Byte)
    (htr : ∀ s o, (tr s o).1.holdings = s.holdings) : (logAppend s tr rec).1.holdings = s.holdings := by
  unfold logAppend
  dsimp only
  split
  · exact htr s 0
  · split
    · rw [holdings_devWrite, htr]
    · split
      · rw [htr, htr]
      · rw [holdings_devWrite, holdings_devWrite, htr, htr]

@[simp] theorem holdings_nextSeq (s : State) : (nextSeq s).1.holdings = s.holdings := rfl

@[simp] theorem holdings_postOperator (s : State) (op : Nat) (r : Record) : (postOperator s op r).holdings = s.holdings := by
  unfold postOperator
  dsimp only
  split
  · have h := holdings_logAppend (nextSeq s).1 _ (r.bytes (nextSeq s).2 (nextSeq s).1.now)
      (holdings_reach op (bitsOf ((nextSeq s).1.getCtx op).nlog.toNat 6 50 * 64) .write)
    split
    · rw [holdings_count, h, holdings_nextSeq]
    · rw [h, holdings_nextSeq]
  · rw [holdings_count, holdings_nextSeq]

@[simp] theorem holdings_postToOperator (s : State) (ctx : Nat) (r : Record) : (postToOperator s ctx r).holdings = s.holdings := by
  unfold postToOperator
  split
  · rfl
  · exact holdings_postOperator s _ r

@[simp] theorem holdings_send (s : State) (m : OutMsg) : (s.send m).holdings = s.holdings := rfl
@[simp] theorem holdings_updFunc (s : State) (fn : Nat) (f : Func → Func) : (s.updFunc fn f).holdings = s.holdings := rfl

/-- A record that a log has taken or dropped: a drop is counted (R16). -/
theorem holdings_dropCounted {s : State} {x : State × Bool} (h : x.1.holdings = s.holdings) (ctx : Nat) :
    (if x.2 = true then x.1.count ctx 0x000D 1 else x.1).holdings = s.holdings := by
  split
  · exact (holdings_count _ _ _ _).trans h
  · exact h

@[simp] theorem holdings_postOwner (s : State) (ctx vec : Nat) (r : Record) : (postOwner s ctx vec r).holdings = s.holdings := by
  unfold postOwner
  have hlog (base : Nat) (rec : List Byte) :
      (if base = 0 ∨ hostBase + base + 32832 > 0x10000000000000 then ((nextSeq s).1, true)
        else logAppend (nextSeq s).1 (fun s o => (s, some (hostBase + base + o))) rec).1.holdings = s.holdings := by
    split
    · exact holdings_nextSeq s
    · exact holdings_logAppend _ _ rec (fun _ _ => rfl)
  dsimp only
  split
  · exact (holdings_send _ _).trans (holdings_dropCounted (hlog _ _) ctx)
  · exact (holdings_updFunc _ _ _).trans (holdings_dropCounted (hlog _ _) ctx)

end Sys2Proof.Machine
end

section
/-! SUPPORT. The fields of a context's registers, who may read and write them, and what a write leaves (R10, R306, R307). -/

namespace Sys2Proof.Machine

/-! ## Fields -/

/-- Fields that follow each other without a gap, from bit `n` down to bit 0. -/
def tiles : List RField → Nat → Bool
  | [], n => n == 0
  | f :: fs, n => f.lo + f.n == n && tiles fs f.lo

/-- The bits of `v` that a list of fields covers, each at its place. -/
def readFields (fs : List RField) (v : Nat) : Nat := fs.foldl (fun x f => x + f.of v * 2 ^ f.lo) 0

theorem readFields_cons (f : RField) (fs : List RField) (v : Nat) :
    readFields (f :: fs) v = f.of v * 2 ^ f.lo + readFields fs v := by
  have h : ∀ (fs : List RField) (a : Nat), fs.foldl (fun x f => x + f.of v * 2 ^ f.lo) a = a + readFields fs v := by
    intro fs
    induction fs with
    | nil => exact fun a => rfl
    | cons f fs ih =>
      intro a
      simp only [readFields, List.foldl_cons]
      rw [ih, ih (0 + _)]
      omega
  simp only [readFields, List.foldl_cons, Nat.zero_add]
  exact h fs _

/-- A field and what lies below it. -/
theorem bitsOf_add_mod (v lo n : Nat) : bitsOf v lo n * 2 ^ lo + v % 2 ^ lo = v % 2 ^ (lo + n) := by
  rw [Nat.pow_add, Nat.mod_mul, bitsOf]
  exact (Nat.add_comm _ _).trans (congrArg _ (Nat.mul_comm _ _))

/-- Fields that tile `n` bits read those bits as they stand. -/
theorem readFields_tiles (v : Nat) : ∀ {fs : List RField} {n : Nat}, tiles fs n = true → readFields fs v = v % 2 ^ n
  | [], n, h => by
    have hn : n = 0 := by simpa [tiles] using h
    subst hn
    simp [readFields, Nat.mod_one]
  | f :: fs, n, h => by
    obtain ⟨hn, ht⟩ : f.lo + f.n = n ∧ tiles fs f.lo = true := by simpa [tiles] using h
    rw [readFields_cons, readFields_tiles v ht, RField.of, bitsOf_add_mod, hn]

/-- The reserved bits among a register's fields. -/
def reservedMask (fs : List RField) : Nat := fs.foldr (fun f m => (if f.res then (2 ^ f.n - 1) <<< f.lo else 0) ||| m) 0

theorem and_fieldMask (v lo n : Nat) : v &&& (2 ^ n - 1) <<< lo = bitsOf v lo n <<< lo := by
  refine Nat.eq_of_testBit_eq fun i => ?_
  simp only [bitsOf, Nat.testBit_and, Nat.testBit_shiftLeft, Nat.testBit_two_pow_sub_one, Nat.testBit_mod_two_pow, Nat.testBit_div_two_pow]
  by_cases h : lo ≤ i
  · simp [h, Bool.and_comm]
  · simp [h]

theorem and_fieldMask_eq_zero {v lo n : Nat} : v &&& (2 ^ n - 1) <<< lo = 0 ↔ bitsOf v lo n = 0 := by
  rw [and_fieldMask, Nat.shiftLeft_eq_zero_iff]

/-- A value has a reserved bit set exactly where it meets the mask. -/
theorem any_reserved_iff (v : Nat) (fs : List RField) : fs.any (fun f => f.res && f.of v != 0) = true ↔ v &&& reservedMask fs ≠ 0 := by
  induction fs with
  | nil => simp [reservedMask]
  | cons f fs ih =>
    have hm : reservedMask (f :: fs) = (if f.res then (2 ^ f.n - 1) <<< f.lo else 0) ||| reservedMask fs := rfl
    rw [List.any_cons, Bool.or_eq_true, ih, hm, Nat.and_or_distrib_left]
    simp only [ne_eq, Nat.or_eq_zero_iff, Classical.not_and_iff_not_or_not]
    refine or_congr ?_ Iff.rfl
    cases f.res <;> simp [RField.of, and_fieldMask_eq_zero]

/-! ## Rights of a context on its own registers (R10, R307) -/

theorem cellAuth_self {s : State} {c : Nat} (h : s.liveCtx c = true) : cellAuth s c c = some 2 := by
  simp [cellAuth, h]

@[simp] theorem RField.cell_owner (f : RField) : f.cell 2 = f.ow := rfl

/-- The fields of a register that its owner reads. -/
def ownerReads (r : Nat) : List RField := (regFields r).filter (fun f => f.ow.r)

theorem readReg_self {s : State} {who : Nat × Nat} {c r : Nat} (h : s.liveCtx c = true) :
    readReg s who c c r = if (ownerReads r).isEmpty then none else some (readFields (ownerReads r) (regValue s who (s.getCtx c) r)) := by
  simp [readReg, cellAuth_self h, ownerReads, readFields]

/-- A register whose owner reads all its bits reads as it stands. -/
theorem readReg_self_whole {s : State} {who : Nat × Nat} {c r n : Nat} (h : s.liveCtx c = true) (ht : tiles (ownerReads r) (n + 1) = true)
    (hv : regValue s who (s.getCtx c) r < 2 ^ (n + 1)) : readReg s who c c r = some (regValue s who (s.getCtx c) r) := by
  have hne : (ownerReads r).isEmpty = false := by
    cases hf : ownerReads r with
    | nil => simp [hf, tiles] at ht
    | cons f fs => rfl
  rw [readReg_self h, hne, readFields_tiles _ ht, Nat.mod_eq_of_lt hv]
  rfl

/-- A number put together from parts that do not overlap, taken apart again: the fields of CX.AUTH. -/
theorem authParts {p a r c u : Nat} (hp : p < 16) (ha : a < 65536) (hr : r < 2) (hc : c < 2) (hu : u < 4) :
    let v := p * 1048576 + a * 16 + r * 8 + c * 4 + u
    v / 16777216 = 0 ∧ v / 1048576 = p ∧ v / 8 % 2 = r ∧ v / 4 % 2 = c ∧ v % 4 = u := by
  refine ⟨?_, ?_, ?_, ?_, ?_⟩ <;> omega

/-- CX.AUTH, whose owner does not read AUDSCOPE. -/
theorem readFields_auth (x : Ctx) (ha : x.auth < 4) (hs : x.audscope < 2 ^ 16) (hp : x.part < 16) :
    readFields (ownerReads 0x01) x.authReg = x.part * 2 ^ 20 + (if x.restore then 8 else 0) + (if x.claimed then 4 else 0) + x.auth := by
  have hf : ownerReads 0x01 = [all3 24 8 true, all3 20 4 false, all3 3 1 false, all3 2 1 false, all3 0 2 false] := rfl
  have hv : x.authReg = x.part * 1048576 + x.audscope * 16 + x.restore.toNat * 8 + x.claimed.toNat * 4 + x.auth := by
    unfold Ctx.authReg
    cases x.restore <;> cases x.claimed <;> rfl
  obtain ⟨h24, h20, h3, h2, h0⟩ := authParts hp hs x.restore.toNat_lt x.claimed.toNat_lt ha
  rw [hf, hv]
  simp only [readFields, List.foldl_cons, List.foldl_nil, RField.of, all3, fld3, bitsOf, Nat.reducePow, Nat.div_one, h24, h20, h3, h2, h0,
    Nat.mod_eq_of_lt hp]
  cases x.restore <;> cases x.claimed <;> simp

/-- No context reaches a register of another's group or split (R306). -/
theorem readReg_perGroup {s : State} {who : Nat × Nat} {a c r : Nat} (hr : perGroup r = true) (h : a ≠ c) : readReg s who a c r = none := by
  unfold readReg
  cases cellAuth s a c <;> simp [hr, h]

theorem readReg_out_of_reach {s : State} {who : Nat × Nat} {a c r : Nat} (h : cellAuth s a c = none) : readReg s who a c r = none := by
  simp [readReg, h]

/-- A write of its own register that no right refuses is turned away for reserved bits alone. -/
theorem writeBad_self {s : State} {who : Nat × Nat} {c r v : Nat} (h : s.liveCtx c = true) (h4 : r ≠ 0x04) (h14 : r ≠ 0x14)
    (hw : (regFields r).all (fun f => f.ow.w) = true) :
    writeBad s who c c r v = if v &&& reservedMask (regFields r) = 0 then none else some .reservedField := by
  have hf : (regFields r).any (fun f => !f.ign && f.of v != f.of (regValue s who (s.getCtx c) r) && !f.ow.w) = false := by
    rw [List.any_eq_false]
    intro f hm
    simp [List.all_eq_true.1 hw f hm]
  have hres := any_reserved_iff v (regFields r)
  simp only [writeBad, cellAuth_self h, RField.cell_owner, hf, h4, h14, decide_false, bne_self_eq_false, Bool.and_false, Bool.or_false, Bool.false_and,
    Bool.false_eq_true, if_false]
  by_cases hv : v &&& reservedMask (regFields r) = 0
  · rw [if_pos hv, if_neg (fun ha => hres.1 ha hv)]
  · rw [if_neg hv, if_pos (hres.2 hv)]

/-- A write that would change a field its owner may not write. -/
theorem writeBad_self_rights {s : State} {who : Nat × Nat} {c r v : Nat} (h : s.liveCtx c = true)
    (hw : (regFields r).all (fun f => !f.ign && !f.ow.w) = true)
    (hx : ∃ x ∈ regFields r, x.of v ≠ x.of (regValue s who (s.getCtx c) r)) : writeBad s who c c r v = some .rights := by
  obtain ⟨x, hm, hne⟩ := hx
  have hf : (regFields r).any (fun f => !f.ign && f.of v != f.of (regValue s who (s.getCtx c) r) && !f.ow.w) = true := by
    rw [List.any_eq_true]
    refine ⟨x, hm, ?_⟩
    have := List.all_eq_true.1 hw x hm
    simp_all
  simp only [writeBad, cellAuth_self h, RField.cell_owner, hf, if_true, ite_self]

/-! ## What a write leaves (R306, R307) -/

/-- A write of register `r` of context `c` gives it the value `v`; of the other registers, CX.STATUS apart, and of the rest of
the group nothing changes. CX.TFRAME, a frame's address, follows CX.SPILLBASE. -/
structure RegisterSet (s t : State) (gid e c r v : Nat) (g : Group) : Prop where
  value : regValue t (gid, e) (t.getCtx c) r = v
  mem : t.mem = s.mem
  group : ∃ g', t.group? gid = some g' ∧ g'.win = g.win ∧ g'.sreg = g.sreg ∧ g'.preds = g.preds ∧ g'.splits = g.splits
  others : ∀ r' < 0x1E, r' ≠ r → r' ≠ 0x02 → (r = 0x05 → r' ≠ 0x04) → regValue t (gid, e) (t.getCtx c) r' = regValue s (gid, e) (s.getCtx c) r'

theorem RegisterSet.dropHandles {s t : State} {gid e c r v : Nat} {g : Group} (h : RegisterSet s t gid e c r v g) :
    RegisterSet s (dropHandles t c) gid e c r v g := ⟨h.value, h.mem, h.group, h.others⟩

/-- A register of the context: `f` writes its field. -/
theorem registerSet_updCtx {s : State} {gid e c r v : Nat} {g : Group} {x : Ctx} {f : Ctx → Ctx} (hc : s.ctx? c = some x) (hg : s.group? gid = some g)
    (hn : ∀ y, (f y).num = y.num) (hv : regValue s (gid, e) (f x) r = v)
    (ho : ∀ r' < 0x1E, r' ≠ r → regValue s (gid, e) (f x) r' = regValue s (gid, e) x r') : RegisterSet s (s.updCtx c f) gid e c r v g := by
  have hx : s.getCtx c = x := getCtx_of hc
  have hr : ∀ r', regValue (s.updCtx c f) (gid, e) (f x) r' = regValue s (gid, e) (f x) r' := fun _ => rfl
  refine ⟨?_, rfl, ⟨g, hg, rfl, rfl, rfl, rfl⟩, fun r' h1 h2 _ _ => ?_⟩
  · rw [getCtx_updCtx hc hn, hr, hv]
  · rw [getCtx_updCtx hc hn, hr, hx, ho r' h1 h2]

/-- An owner's write of a register that the context holds. -/
def Ctx.setOwn (r v : Nat) (x : Ctx) : Ctx :=
  match r with
  | 0x03 => { x with tvec := BitVec.ofNat 32 v }
  | 0x08 => { x with spillPool := BitVec.ofNat 64 v }
  | 0x09 => { x with spillAreas := BitVec.ofNat 32 v }
  | 0x0A => { x with wdog := BitVec.ofNat 32 v }
  | 0x0E => { x with lease := BitVec.ofNat 32 (max 64 (min 4096 v)) }
  | 0x0F => { x with htab := BitVec.ofNat 64 v }
  | 0x10 => { x with hlim := BitVec.ofNat 32 v }
  | 0x12 => { x with s1root := BitVec.ofNat 64 v }
  | 0x1D => { x with nlog := BitVec.ofNat 64 v }
  | _ => x

/-- An owner's write of a register that the executing group holds. -/
def Group.setOwn (r v : Nat) (g : Group) : Group :=
  match r with
  | 0x05 => { g with spillBase := v }
  | 0x06 => { g with spillLim := v }
  | 0x0C => { g with fpstat := BitVec.ofNat 32 v }
  | _ => g

theorem Ctx.setOwn_num (r v : Nat) (x : Ctx) : (x.setOwn r v).num = x.num := by
  unfold Ctx.setOwn
  split <;> rfl

theorem regValue_ctx_setOwn_ne (s : State) (who : Nat × Nat) (x : Ctx) {r r' : Nat} (v : Nat) (h : r' ≠ r) :
    regValue s who (x.setOwn r v) r' = regValue s who x r' := by
  unfold Ctx.setOwn
  split
  case h_10 => rfl
  all_goals
    unfold regValue
    split
    any_goals rfl
    exact absurd rfl h

theorem Group.setOwn_gid (r v : Nat) (g : Group) : (g.setOwn r v).gid = g.gid := by
  unfold Group.setOwn
  split <;> rfl

theorem Group.setOwn_registers (r v : Nat) (g : Group) :
    (g.setOwn r v).win = g.win ∧ (g.setOwn r v).sreg = g.sreg ∧ (g.setOwn r v).preds = g.preds ∧ (g.setOwn r v).splits = g.splits := by
  unfold Group.setOwn
  split <;> exact ⟨rfl, rfl, rfl, rfl⟩

theorem regValue_group_setOwn_ne {s : State} {gid e : Nat} {g : Group} (x : Ctx) {r r' : Nat} (v : Nat) (hg : s.group? gid = some g)
    (hr : r = 0x05 ∨ r = 0x06 ∨ r = 0x0C) (h : r' ≠ r) (h2 : r' ≠ 0x02) (h4 : r = 0x05 → r' ≠ 0x04) :
    regValue (s.updGroup gid (Group.setOwn r v)) (gid, e) x r' = regValue s (gid, e) x r' := by
  unfold regValue
  simp only [State.getGroup_of (State.updGroup_self hg (Group.setOwn_gid r v)), State.getGroup_of hg]
  rcases hr with rfl | rfl | rfl
  · split
    any_goals rfl
    · exact absurd rfl h2
    · exact absurd rfl (h4 rfl)
    · exact absurd rfl h
  · split
    any_goals rfl
    · exact absurd rfl h2
    · exact absurd rfl h
  · split
    any_goals rfl
    · exact absurd rfl h2
    · exact absurd rfl h

/-- The registers of R306 that a context holds and whose every field is its owner's to write. -/
def ctxOwnRegs : List Nat := [0x0E, 0x0F, 0x10, 0x03, 0x08, 0x09, 0x0A, 0x12, 0x1D]

theorem regValue_ctx_setOwn_self (s : State) (who : Nat × Nat) (x : Ctx) {r v : Nat} (hr : r ∈ ctxOwnRegs)
    (hv : v < if sysWords r = 2 then 2 ^ 64 else 2 ^ 32) :
    regValue s who (x.setOwn r v) r = if r = 0x0E then max 64 (min 4096 v) else v := by
  simp only [ctxOwnRegs, List.mem_cons, List.not_mem_nil, or_false] at hr
  rcases hr with rfl | rfl | rfl | rfl | rfl | rfl | rfl | rfl | rfl
  · exact Nat.mod_eq_of_lt (by omega)
  all_goals exact Nat.mod_eq_of_lt hv

/-- A write of CX.HTAB or CX.HLIM drops the handle-cache entries too (R172). -/
theorem writeReg_ctx (s : State) (who : Nat × Nat) (c : Nat) {r : Nat} (v : Nat) (hr : r ∈ ctxOwnRegs) :
    writeReg s who c r v = s.updCtx c (Ctx.setOwn r v) ∨ writeReg s who c r v = dropHandles (s.updCtx c (Ctx.setOwn r v)) c := by
  simp only [ctxOwnRegs, List.mem_cons, List.not_mem_nil, or_false] at hr
  rcases hr with rfl | rfl | rfl | rfl | rfl | rfl | rfl | rfl | rfl
  · exact .inl rfl
  · exact .inr rfl
  · exact .inr rfl
  all_goals exact .inl rfl

/-- WRSR of an owner's register that the context holds. -/
theorem registerSet_ctx {s : State} {gid e c r v : Nat} {g : Group} {x : Ctx} (hc : s.ctx? c = some x) (hg : s.group? gid = some g)
    (hr : r ∈ ctxOwnRegs) (hv : v < if sysWords r = 2 then 2 ^ 64 else 2 ^ 32) :
    RegisterSet s (writeReg s (gid, e) c r v) gid e c r (if r = 0x0E then max 64 (min 4096 v) else v) g := by
  have h := registerSet_updCtx (r := r) hc hg (Ctx.setOwn_num r v) (regValue_ctx_setOwn_self s (gid, e) x hr hv)
    (fun _ _ h => regValue_ctx_setOwn_ne s (gid, e) x v h)
  rcases writeReg_ctx s (gid, e) c v hr with hw | hw
  · rw [hw]; exact h
  · rw [hw]; exact h.dropHandles

/-- WRSR of an owner's register that the executing group holds. -/
theorem registerSet_group {s : State} {gid e c r v : Nat} {g : Group} (hg : s.group? gid = some g) (hr : r = 0x05 ∨ r = 0x06 ∨ r = 0x0C)
    (hv : v < if sysWords r = 2 then 2 ^ 64 else 2 ^ 32) :
    RegisterSet s (writeReg s (gid, e) c r v) gid e c r (if r = 0x0E then max 64 (min 4096 v) else v) g := by
  have hw : writeReg s (gid, e) c r v = s.updGroup gid (Group.setOwn r v) := by
    rcases hr with rfl | rfl | rfl <;> rfl
  have hs := State.updGroup_self hg (Group.setOwn_gid r v)
  rw [hw]
  refine ⟨?_, rfl, ⟨_, hs, Group.setOwn_registers r v g⟩, fun r' _ h h2 h4 => regValue_group_setOwn_ne _ v hg hr h h2 h4⟩
  unfold regValue
  simp only [State.getGroup_of hs]
  rcases hr with rfl | rfl | rfl
  · rfl
  · rfl
  · exact Nat.mod_eq_of_lt hv

/-! ## WRSR lane by lane (R306) -/

/-- One lane of a write that either is refused, and names the lane, or steps the state. -/
def laneWrite (bad : State → Nat → Option Cause) (step : State → Nat → State) (x : State × List (Nat × LaneFault)) (l : Nat) :
    State × List (Nat × LaneFault) :=
  match bad x.1 l with
  | some c => (x.1, x.2 ++ [lanesFault l c])
  | none => (step x.1 l, x.2)

/-- Lanes none of whose writes is refused step the state in their order. -/
theorem foldl_laneWrite (bad : State → Nat → Option Cause) (step : State → Nat → State) (fs : List (Nat × LaneFault)) :
    ∀ (ls : List Nat) (s : State), (∀ pre l post, ls = pre ++ l :: post → bad (pre.foldl step s) l = none) →
      ls.foldl (laneWrite bad step) (s, fs) = (ls.foldl step s, fs)
  | [], _, _ => rfl
  | l :: ls, s, h => by
    have h0 : laneWrite bad step (s, fs) l = (step s l, fs) := by simp only [laneWrite, show bad s l = none from h [] l ls rfl]
    rw [List.foldl_cons, List.foldl_cons, h0]
    exact foldl_laneWrite bad step fs ls (step s l) (fun pre a post e => h (l :: pre) a post (congrArg (l :: ·) e))

end Sys2Proof.Machine
end

section
/-! SUPPORT. Counting an issue, and the system acts of one lane (R295, R313). -/

namespace Sys2Proof.Machine

/-! ## Counting an issue -/

theorem holdings_markCounted (s : State) (gid entry ctx : Nat) (c : Clause) : (markCounted s gid entry ctx c).1.holdings = s.holdings := by
  unfold markCounted
  split
  · rfl
  · refine (holdings_updGroup _ _ _ fun g => ?_).trans (holdings_count _ _ _ _)
    split <;> rfl

@[simp] theorem entered_holdings (s : State) (k : SlotCtx) : (entered s k).holdings = s.holdings := by
  unfold entered
  split
  · exact holdings_markCounted ..
  all_goals
    split
    · rfl
    · exact holdings_count ..

@[simp] theorem entered_mem (s : State) (k : SlotCtx) : (entered s k).mem = s.mem := by
  unfold entered markCounted
  split <;> split <;> rfl

@[simp] theorem entered_ctl (s : State) (k : SlotCtx) : (entered s k).ctl = s.ctl := by
  unfold entered markCounted
  split <;> split <;> rfl

@[simp] theorem enteredCtx_who (s : State) (k : SlotCtx) : (enteredCtx s k).who = k.who := by simp [SlotCtx.who]

/-! ## One lane -/

/-- No act of the lane is under way. -/
theorem oneAct_no_act {s : State} {i : Instr} {k : SlotCtx} {l : Nat} (h : OneAct s i k l) :
    (entered s k).ctl.acts.find? (fun a => a.gid == (enteredCtx s k).gid && a.entry == (enteredCtx s k).entry && a.lane == l) = none := by
  rw [List.find?_eq_none]
  intro a ha
  simp only [entered_ctl] at ha
  simp only [enteredCtx_gid, enteredCtx_entry, Bool.and_eq_true, beq_iff_eq, not_and, and_imp]
  exact h.free a ha

/-- An act that answers at once ends its slot with its word. -/
theorem slotStep_actWord {s t : State} {i : Instr} {k : SlotCtx} {l : Nat} {act : SlotCtx → State → Nat → ActOut} {w : Word} (h : OneAct s i k l)
    (ha : act (enteredCtx s k) (entered s k) l = .word t w) : slotStep i (actEff act) s = .next (ended t (enteredCtx s k) [(l, [w])]) := by
  refine slotStep_done h.at' ?_
  unfold actEff
  simp only [enteredCtx_lanes, h.lane, actLanes, oneAct_no_act h, ha, List.nil_append]

/-- The state with an act of a lane on context `n` under way. -/
def noteAct (s : State) (k : SlotCtx) (l n : Nat) : State :=
  { s with ctl := { s.ctl with acts := s.ctl.acts ++ [⟨k.gid, k.entry, l, n, none⟩] } }

theorem mem_noteAct (s : State) (k : SlotCtx) (l n : Nat) : (⟨k.gid, k.entry, l, n, none⟩ : Act) ∈ (noteAct s k l n).ctl.acts :=
  List.mem_append_right _ (List.mem_singleton.2 rfl)

/-- An act that waits is noted, and its slot stands. -/
theorem slotStep_actWait {s t : State} {i : Instr} {k : SlotCtx} {l n : Nat} {act : SlotCtx → State → Nat → ActOut} (h : OneAct s i k l)
    (ha : act (enteredCtx s k) (entered s k) l = .wait t n) : slotStep i (actEff act) s = .next (noteAct t k l n) := by
  refine slotStep_eff h.at' (o := .stall (noteAct t k l n)) ?_ (fun _ _ _ => Out.noConfusion)
  unfold actEff
  simp only [enteredCtx_lanes, h.lane, actLanes, oneAct_no_act h, ha]
  simp only [enteredCtx_gid, enteredCtx_entry, noteAct]

/-- An act under way: its slot stands until the act has its result, and then takes it. -/
theorem slotStep_actUnderWay {s : State} {i : Instr} {k : SlotCtx} {l : Nat} {act : SlotCtx → State → Nat → ActOut} {a : Act} (h : AtSlot s i k)
    (hl : k.lanes = [l]) (hf : s.ctl.acts.find? (fun x => x.gid == k.gid && x.entry == k.entry && x.lane == l) = some a) :
    (a.done = none → slotStep i (actEff act) s = .next (entered s k)) ∧
    (∀ w, a.done = some w → slotStep i (actEff act) s = .next (ended { entered s k with ctl := { (entered s k).ctl with
      acts := (entered s k).ctl.acts.filter (fun x => x != a) } } (enteredCtx s k) [(l, [w])])) := by
  refine ⟨fun hd => slotStep_eff h (o := .stall (entered s k)) ?_ (fun _ _ _ => Out.noConfusion), fun w hd => slotStep_done h ?_⟩
  · unfold actEff
    simp only [enteredCtx_lanes, hl, actLanes, enteredCtx_gid, enteredCtx_entry, entered_ctl, hf, hd]
  · unfold actEff
    simp only [enteredCtx_lanes, hl, actLanes, enteredCtx_gid, enteredCtx_entry, entered_ctl, hf, hd, List.nil_append]

/-- The record of an act, read whole. -/
theorem actRecord_read {k : SlotCtx} {s t : State} {addr n align : Nat} {act : State → List Byte → ActOut} {b : List Byte} (ha : addr < 2 ^ 56)
    (hal : addr % align = 0) (hr : readVirt s k.who k.core k.ctx addr n .read = (t, .inr b)) : actRecord k s addr n align act = act t b := by
  simp only [actRecord, Nat.not_le.2 ha, if_false, hal, ne_eq, not_true_eq_false, hr]

theorem namedCtx_of {s : State} {k : SlotCtx} {n : Nat} {c : Ctx} (hc : s.ctx? n = some c) (hp : c.part = (s.getCtx k.ctx).part) :
    namedCtx s k n = some c := by
  simp only [namedCtx, hc, hp, if_true]

/-- An act's status is its answer. -/
theorem status_eq (s : State) (st v : Nat) : status s st v = .word s (actStatus st v) := rfl

/-- The word that an operand of an act gives. -/
theorem actWord_entered {s : State} {i : Instr} {k : SlotCtx} (h : slotCtx s i = some k) (f : YForm) (l j : Nat) :
    actWord (enteredCtx s k) (entered s k) f l j = (k.word s f.src l j).toNat := by
  simp only [actWord, entered_word h]

theorem actAddr_entered {s : State} {i : Instr} {k : SlotCtx} (h : slotCtx s i = some k) (f : YForm) (l : Nat) :
    actAddr (enteredCtx s k) (entered s k) f l = k.rd64 s f.src l := by
  simp only [actAddr, entered_rd64 h]

/-- An act whose record lies in order at the operand's address acts on the record read. -/
theorem actRecord_entered {s t : State} {i : Instr} {k : SlotCtx} (h : slotCtx s i = some k) {f : YForm} {l n align : Nat}
    {act : State → List Byte → ActOut} {b : List Byte} (ha : k.rd64 s f.src l < 2 ^ 56) (hal : k.rd64 s f.src l % align = 0)
    (hr : readVirt (entered s k) k.who k.core k.ctx (k.rd64 s f.src l) n .read = (t, .inr b)) :
    actRecord (enteredCtx s k) (entered s k) (actAddr (enteredCtx s k) (entered s k) f l) n align act = act t b := by
  rw [actAddr_entered h]
  refine actRecord_read ha hal ?_
  rw [enteredCtx_who, enteredCtx_core, enteredCtx_ctx]
  exact hr

/-! ## New contexts (R315) -/

theorem freeCtx_eq {s : State} {n : Nat} (hn : n < 4096) (hf : s.liveCtx n = false) (hb : ∀ m < n, s.liveCtx m = true) : freeCtx s = some n := by
  unfold freeCtx
  rw [List.find?_range_eq_some]
  exact ⟨by simp [hf], List.mem_range.2 hn, fun m hm => by simp [hb m hm]⟩

theorem addCtx_self (s : State) (c : Ctx) : (addCtx s c).ctx? c.num = some c := by
  unfold addCtx State.ctx?
  rw [List.find?_append, List.find?_eq_none.2 (fun x hx => by simpa using (List.mem_filter.1 hx).2)]
  simp

theorem addCtx_ne (s : State) (c : Ctx) {m : Nat} (h : m ≠ c.num) : (addCtx s c).ctx? m = s.ctx? m := by
  have he : (fun a : Ctx => decide ((a.num != c.num) = true ∧ (a.num == m) = true)) = (fun a => a.num == m) := by
    funext a
    by_cases ha : a.num = m <;> simp [ha, h]
  have hc : [c].find? (fun a => a.num == m) = none := by simp [Ne.symm h]
  unfold addCtx State.ctx?
  rw [List.find?_append, List.find?_filter, he, hc, Option.or_none]

/-- The context that a placement record makes. -/
def placedCtx (s : State) (k : SlotCtx) (b : List Byte) (image : Option Nat) (n : Nat) : Ctx :=
  { Ctx.fresh n (leAt b 0 1) (s.getCtx k.ctx).part with
      s2root := BitVec.ofNat 64 (leAt b 8 8), saveBase := leAt b 16 8, saveSize := leAt b 24 4, tenant := leAt b 32 8,
      clusters := if recClusters b = 0 then partClusters s (s.getCtx k.ctx).part else recClusters b, restore := image.isSome, image := image,
      imgSize := leAt b 48 4, run := if leAt b 0 1 = 3 then 1 else 0 }

/-- A record in order takes the lowest free number. -/
theorem placeNew_eq {k : SlotCtx} {s : State} {b : List Byte} {image : Option Nat} {n : Nat} (hn : n < 4096) (hf : s.liveCtx n = false)
    (hb : ∀ m < n, s.liveCtx m = true) (hc : recClusters b &&& ~~~partClusters s (s.getCtx k.ctx).part = 0)
    (hk : leAt b 0 1 = 2 → keyQuota s (s.getCtx k.ctx).part ≠ 0) :
    placeNew k s b image = .word (addCtx s (placedCtx s k b image n)) (actStatus 0 n) := by
  have hno : ¬(recClusters b &&& ~~~partClusters s (s.getCtx k.ctx).part ≠ 0 ∨ (leAt b 0 1 = 2 ∧ keyQuota s (s.getCtx k.ctx).part = 0)) := by
    rintro (h | ⟨h2, h0⟩)
    · exact h hc
    · exact hk h2 h0
  unfold placeNew
  dsimp only
  rw [freeCtx_eq hn hf hb]
  dsimp only
  rw [if_neg hno]
  rfl

/-- PLACE.1's record is an owner's. -/
theorem placeBad_restore {b : List Byte} (h : placeBad b true = none) : leAt b 0 1 = 2 := by
  refine Decidable.byContradiction fun hne => ?_
  unfold placeBad at h
  split at h
  · cases h
  · rw [if_pos (by simp [hne])] at h
    cases h

/-- PLACE without RESUME, once its record has been read. -/
theorem placeAct_entered {s s1 : State} {i : Instr} {k : SlotCtx} {f : YForm} {l : Nat} {b : List Byte} (restore : Bool) (h : slotCtx s i = some k)
    (h56 : k.rd64 s f.src l < 2 ^ 56) (hal : k.rd64 s f.src l % 64 = 0)
    (hr : readVirt (entered s k) k.who k.core k.ctx (k.rd64 s f.src l) 64 .read = (s1, .inr b)) (h0 : leAt b 1 1 % 2 = 0) :
    (leAt b 0 1 = 1 → placeAct f restore (enteredCtx s k) (entered s k) l = .word s1 (actStatus 1 0)) ∧
    (∀ o, leAt b 0 1 ≠ 1 → placeBad b restore = some o → placeAct f restore (enteredCtx s k) (entered s k) l = .word s1 (actStatus 6 o)) ∧
    (leAt b 0 1 ≠ 1 → placeBad b restore = none →
      (restore = false → placeAct f restore (enteredCtx s k) (entered s k) l = placeNew (enteredCtx s k) s1 b none) ∧
      (restore = true → placeAct f restore (enteredCtx s k) (entered s k) l = placeImage (enteredCtx s k) s1 b)) := by
  unfold placeAct
  rw [actRecord_entered h h56 hal hr, if_neg (by omega)]
  refine ⟨fun h1 => by rw [if_pos h1, status_eq], fun o h1 ho => by rw [if_neg h1, ho]; exact status_eq .., fun h1 ho => ?_⟩
  rw [if_neg h1, ho]
  exact ⟨fun h => if_neg (by simp [h]), fun h => if_pos h⟩

/-- PLACE.1 whose image has a header that this part knows and can restore. -/
theorem placeImage_entered {s s1 s2 : State} {k : SlotCtx} {b h : List Byte} (h56 : leAt b 40 8 < 2 ^ 56)
    (hr : readVirt s1 k.who k.core k.ctx (leAt b 40 8) 256 .read = (s2, .inr h)) (hk : headerKnown h = true) (hm : missingBlock s2 h = none) :
    placeImage (enteredCtx s k) s1 b = placeNew (enteredCtx s k) s2 b (some (leAt b 40 8)) := by
  unfold placeImage
  dsimp only
  rw [actRecord_read h56 (Nat.mod_one _) (t := s2) (b := h) (by rw [enteredCtx_who, enteredCtx_core, enteredCtx_ctx]; exact hr), hk, hm]
  exact if_neg Bool.false_ne_true

/-! ## EVICT and KEYBIND (R20, R24, R315) -/

/-- A context of the operator's partition that is not an operator's, not destroyed, and has no act under way. -/
theorem evictable_of {k : SlotCtx} {s : State} {n : Nat} {runs : List Nat} {act : Ctx → ActOut} {c : Ctx} (hc : s.ctx? n = some c)
    (hp : c.part = (s.getCtx k.ctx).part) (ha : c.auth ≠ 1) (h7 : c.run ≠ 7) (hb : actBusy s n = false) (hr : runs.contains c.run = true) :
    evictable k s n runs act = act c := by
  simp only [evictable, namedCtx_of hc hp, ha, h7, or_self, if_false, hb, hr, Bool.not_true, Bool.false_eq_true]

theorem shellFor_of {s : State} {part n : Nat} {c : Ctx} (hc : s.ctx? n = some c) (hp : c.part = part) (h7 : c.run ≠ 7) (ha : c.auth = 2)
    (hcl : c.claimed = false) (hb : actBusy s n = false) : shellFor s part n = .inr c := by
  simp [shellFor, hc, hp, h7, ha, hcl, hb]

theorem actBusy_entered (s : State) (k : SlotCtx) (n : Nat) : actBusy (entered s k) n = actBusy s n := by
  simp only [actBusy, entered_ctl]

/-- EVICT.0 and EVICT.2 of a running context whose sealing is planned: it starts to leave, and the act waits. -/
theorem evictAct_waits {k : SlotCtx} {s t : State} {f : YForm} {l : Nat} {c : Ctx} {p : SealPlan} (hn : actWord k s f l 0 = c.num)
    (hc : s.ctx? c.num = some c) (hp : c.part = (s.getCtx k.ctx).part) (ha : c.auth ≠ 1) (hrun : c.run = 2) (hg : c.gang = false)
    (hb : actBusy s c.num = false) (hplan : planSeal s c.num k.ctx c.saveBase c.saveSize 0 = .inr (t, p)) :
    evictAct f k s l = .wait (startLeave t c.num (.evict (actWord k s f l 1 % 2 == 1) p)) c.num := by
  unfold evictAct
  rw [hn, evictable_of hc hp ha (by omega) hb (by rw [hrun]; rfl), hg, hplan]
  rfl

theorem evictSealAct_waits {k : SlotCtx} {s t : State} {f : YForm} {l : Nat} {c : Ctx} {p : SealPlan} (hn : actWord k s f l 0 = c.num)
    (hc : s.ctx? c.num = some c) (hp : c.part = (s.getCtx k.ctx).part) (ha : c.auth ≠ 1) (hrun : c.run = 2) (hg : c.gang = false)
    (hb : actBusy s c.num = false) (hs : s.ctl.seals.length < 4096)
    (hplan : planSeal s c.num k.ctx (actWord k s f l 1 + actWord k s f l 2 * 2 ^ 32) (actWord k s f l 3) 0 = .inr (t, p)) :
    evictSealAct f k s l = .wait (startLeave t c.num (.seal p)) c.num := by
  unfold evictSealAct
  dsimp only
  rw [hn, evictable_of hc hp ha (by omega) hb (by rw [hrun]; rfl), hg, if_neg (Nat.not_le.2 hs), hplan]
  rfl

/-- KEYBIND of a shell under the key slot of the context that issues it. -/
theorem keybindAct_claims {k : SlotCtx} {s : State} {f : YForm} {l : Nat} {c : Ctx} {ks : KeySlot} (hn : actWord k s f l 0 = c.num)
    (hf : actWord k s f l 1 < 2) (hc : s.ctx? c.num = some c) (hp : c.part = (s.getCtx k.ctx).part) (ha : c.auth = 2) (hcl : c.claimed = false)
    (h7 : c.run ≠ 7) (hb : actBusy s c.num = false) (hslot : (s.getCtx k.ctx).keySlot = some ks.slot) (hks : s.keySlot? ks.slot = some ks)
    (ht : c.tenant = 0 ∨ c.tenant = ks.tenant) :
    keybindAct f k s l = .word (claimShell s c.num ks.slot (actWord k s f l 1 == 1)).1 (claimShell s c.num ks.slot (actWord k s f l 1 == 1)).2 := by
  have hten : ¬(c.tenant ≠ 0 ∧ c.tenant ≠ ks.tenant) := fun ⟨h0, hk⟩ => ht.elim h0 hk
  simp only [keybindAct, if_neg (Nat.not_le.2 hf), hn, shellFor_of hc hp h7 ha hcl hb, hslot, Option.bind_some, hks, if_neg hten]

/-- A planned sealing takes the next number and nothing else. -/
theorem planSeal_inr {s t : State} {ctx op addr size extra : Nat} {p : SealPlan} (h : planSeal s ctx op addr size extra = .inr (t, p)) :
    t = { s with nextId := s.nextId + 1 } := by
  unfold planSeal at h
  dsimp only at h
  split at h
  · injection h with h
    injection h with h _
    exact h.symm
  · cases h

/-- A context that starts to leave: its eviction stands in its record, and its resident groups are halted. -/
theorem startLeave_ctx? {s : State} {ctx : Nat} {c : Ctx} (l : Leave) (hc : s.ctx? ctx = some c) :
    (startLeave s ctx l).ctx? ctx = some { c with leave := some l } := by
  have hn := ctx?_num hc
  unfold startLeave
  rw [State.updCtx_ctx _ _ _ _ (by exact fun _ => rfl), show (setHalt s ctx true).ctx? ctx = some c from hc, Option.map_some, hn, beq_self_eq_true, if_pos rfl]

theorem startLeave_halts (s : State) (ctx : Nat) (l : Leave) : ∀ g ∈ (startLeave s ctx l).groups, g.ctx = ctx → g.resident = true → g.halted = true := by
  intro g hg hx hr
  obtain ⟨g', -, rfl⟩ := List.mem_map.1 (show g ∈ s.groups.map _ from hg)
  by_cases h : (g'.ctx == ctx && g'.resident) = true
  · rw [if_pos h]
  · rw [if_neg h] at hx hr
    exact absurd (by simp [hx, hr]) h

/-- A shell without an image is claimed and runs (R21). -/
theorem claimShell_of_no_image {s : State} {ctx slot : Nat} {acceptInc : Bool} {c : Ctx} (hc : s.ctx? ctx = some c) (hi : c.image = none) :
    ∃ t c', claimShell s ctx slot acceptInc = (t, statusWord 0 0) ∧ t.ctx? ctx = some c' ∧ c'.claimed = true ∧ c'.run = 1 ∧
      c'.keySlot = some slot ∧ c'.acceptInc = acceptInc := by
  let u := (updSlot s (some slot) (fun k => { k with bound := k.bound + 1 })).updCtx ctx
    (fun c => { c with claimed := true, run := 1, keySlot := some slot, acceptInc := acceptInc })
  have hu : u.ctx? ctx = some { c with claimed := true, run := 1, keySlot := some slot, acceptInc := acceptInc } := by
    rw [State.updCtx_ctx _ _ _ _ (by exact fun _ => rfl), show (updSlot s (some slot) _).ctx? ctx = some c from hc, Option.map_some, ctx?_num hc,
      beq_self_eq_true, if_pos rfl]
  obtain ⟨c', hc', hp⟩ := ctx?_congr (holdings_postToOperator u ctx ⟨ctx, 3, 0, 0, 0⟩) hu
  refine ⟨_, c', ?_, hc', congrArg Ctx.claimed hp, congrArg Ctx.run hp, congrArg Ctx.keySlot hp, congrArg Ctx.acceptInc hp⟩
  simp only [claimShell, getCtx_of hc, hi]
  rfl

/-- The zeroing of spill areas touches memory alone. -/
theorem scrubSpill_ctxs (s : State) (ctx : Nat) : (scrubSpill s ctx).ctxs = s.ctxs := by
  refine foldl_keeps (fun t : State => t.ctxs = s.ctxs) _ (fun t g h => ?_) _ s rfl
  dsimp only
  split
  · exact h
  · refine foldl_keeps (fun u : State => u.ctxs = s.ctxs) _ (fun u p hu => ?_) _ t h
    split <;> exact hu

/-- The context holds no group, block, queue or engine operation. -/
structure HoldsNothing (s : State) (ctx : Nat) : Prop where
  groups : ∀ g ∈ s.groups, g.ctx ≠ ctx
  blocks : ∀ b ∈ s.blocks, b.ctx ≠ ctx
  queues : ∀ q ∈ s.ctl.queues, q.ctx ≠ ctx
  ops : ∀ x ∈ s.mx.ops, x.ctx ≠ ctx

theorem HoldsNothing.congr {s t : State} {ctx : Nat} (h : t.holdings = s.holdings) (hs : HoldsNothing s ctx) : HoldsNothing t ctx := by
  have hg : t.groups.map Group.ctx = s.groups.map Group.ctx := congrArg Holdings.groups h
  have hb : t.blocks = s.blocks := congrArg Holdings.blocks h
  have hq : t.ctl.queues = s.ctl.queues := congrArg Holdings.queues h
  have ho : t.mx.ops = s.mx.ops := congrArg Holdings.ops h
  refine ⟨fun g hm => ?_, hb ▸ hs.blocks, hq ▸ hs.queues, ho ▸ hs.ops⟩
  have hm' : g.ctx ∈ s.groups.map Group.ctx := hg ▸ List.mem_map_of_mem hm
  obtain ⟨g', hg', he⟩ := List.mem_map.1 hm'
  exact he ▸ hs.groups g' hg'

theorem ne_of_mem_filter {α : Type} {l : List α} {f : α → Nat} {n : Nat} {x : α} (h : x ∈ l.filter (fun x => f x != n)) : f x ≠ n := by
  simpa using (List.mem_filter.1 h).2

/-- A destroyed context is there with RUN 7 and holds nothing. -/
theorem destroyCtx_run {s : State} {ctx : Nat} {pend : Bool} {c : Ctx} (hc : s.ctx? ctx = some c) :
    ((destroyCtx s ctx pend).getCtx ctx).run = 7 ∧ HoldsNothing (destroyCtx s ctx pend) ctx := by
  unfold destroyCtx
  dsimp only
  generalize hu : State.updCtx _ _ _ = u
  have hc' : (scrubSpill s ctx).ctx? ctx = some c := by rw [State.ctx?, scrubSpill_ctxs]; exact hc
  have hrun : (u.getCtx ctx).run = 7 := by
    subst hu
    refine (congrArg Ctx.run (getCtx_updCtx (x := c) ?_ ?_)).trans ?_
    · exact hc'
    · exact fun _ => rfl
    · rfl
  have hno : HoldsNothing u ctx := by
    subst hu
    exact ⟨fun _ => ne_of_mem_filter, fun _ => ne_of_mem_filter, fun _ => ne_of_mem_filter, fun _ => ne_of_mem_filter⟩
  have h := holdings_postOwner u ctx 0 ⟨ctx, 2, 0, 0, 0⟩
  exact ⟨(congrArg Ctx.run (getCtx_congr h ctx)).trans hrun, hno.congr h⟩

/-- An entry released is there no more (R316). -/
theorem releaseSeal_seals (s : State) (n : Nat) : (releaseSeal s n).mem = s.mem ∧ ∀ e ∈ (releaseSeal s n).ctl.seals, e.ctrbase ≠ n := by
  unfold releaseSeal
  split
  · rename_i h
    exact ⟨rfl, fun e he => by simpa using List.find?_eq_none.1 h e he⟩
  · exact ⟨rfl, fun e he => ne_of_mem_filter he⟩

/-- EVICT.3, once the image's header has been read: without an entry of the partition, and with one of this device. -/
theorem evictDiscardAct_entered {s s1 : State} {i : Instr} {k : SlotCtx} {f : YForm} {l : Nat} {h : List Byte} (hk : slotCtx s i = some k)
    (h56 : k.rd64 s f.src l < 2 ^ 56) (hr : readVirt (entered s k) k.who k.core k.ctx (k.rd64 s f.src l) 256 .read = (s1, .inr h)) :
    ((∀ e ∈ s1.ctl.seals, e.ctrbase = leAt h 24 8 → e.part ≠ (s1.getCtx k.ctx).part) →
      evictDiscardAct f (enteredCtx s k) (entered s k) l = .word s1 (actStatus 0x10 0)) ∧
    (leAt h 16 4 = s1.boot.cfg.inst → (∃ e ∈ s1.ctl.seals, e.ctrbase = leAt h 24 8 ∧ e.part = (s1.getCtx k.ctx).part) →
      evictDiscardAct f (enteredCtx s k) (entered s k) l = .word (releaseSeal s1 (leAt h 24 8)) (actStatus 0 0)) := by
  unfold evictDiscardAct
  rw [actRecord_entered hk h56 (Nat.mod_one _) hr, enteredCtx_ctx]
  refine ⟨fun hno => ?_, fun hinst hex => ?_⟩
  · rw [List.find?_eq_none.2 (fun e he => by simpa using hno e he)]
    exact status_eq ..
  · have hs : (s1.ctl.seals.find? (fun e => e.ctrbase == leAt h 24 8 && e.part == (s1.getCtx k.ctx).part)).isSome = true := by
      simpa [List.find?_isSome] using hex
    obtain ⟨e, he⟩ := Option.isSome_iff_exists.1 hs
    have hbase : e.ctrbase = leAt h 24 8 := by
      have := List.find?_some he
      simp only [Bool.and_eq_true, beq_iff_eq] at this
      exact this.1
    rw [he]
    dsimp only
    rw [if_pos hinst, hbase, status_eq]

/-! ## GSWITCH (R319) -/

/-- A switch record in order that names a context of the operator's partition with no act under way. -/
theorem switchFor_of {k : SlotCtx} {s : State} {b : List Byte} {ok : Ctx → Bool} {act : Ctx → SwitchRec → ActOut} {c : Ctx} (hb : switchBad b = none)
    (hc : s.ctx? (leAt b 0 4) = some c) (hp : c.part = (s.getCtx k.ctx).part) (hbusy : actBusy s c.num = false) (hok : ok c = true) :
    switchFor k s b ok act = if leAt b 8 8 * 1024 ≤ s.now then status s 0xF 0 else act c (SwitchRec.ofBytes b) := by
  have hn : namedCtx s k (SwitchRec.ofBytes b).ctx = some c := namedCtx_of hc hp
  simp only [switchFor, hb, hn, hbusy, hok, Bool.not_true, Bool.false_eq_true, if_false]
  rfl

theorem gangImage_enteredCtx (s u : State) (k : SlotCtx) (c : Ctx) (r : SwitchRec) : gangImage u (enteredCtx s k) c r = gangImage u k c r := by
  simp only [gangImage, enteredCtx_ctx]

end Sys2Proof.Machine
end

section
/-! PROOFS. The checks of a slot (R12, R49, R51). -/

namespace Sys2Proof.Authorities

open Machine

/-- Settles O57: every slot instruction runs through `slotStep`, which traps on the first check that fails. -/
theorem slotChecks : Obligations.SlotChecks := by
  unfold Obligations.SlotChecks
  refine ⟨?_, ?_, ?_⟩
  · intro s k i cause sub hs hb hk hu hc
    obtain ⟨eff, he⟩ := exec_eq_slotStep hs hb
    exact (he s).trans (slotStep_refused hk hu hc)
  · intro k auth
    dsimp only
    rw [slotChecks_eq]
    refine ⟨fun c => ?_, fun c p => ?_, fun c p f => ?_, fun c p f r => ?_, fun c p f r l => ?_, fun c p f r l b => ?_, fun c p f r l b => ?_⟩
    · rw [c]; rfl
    · rw [c, p]; rfl
    · rw [c, p, f]; rfl
    · rw [c, p, f, r]; rfl
    · rw [c, p, f, r, l]; rfl
    · rw [c, p, f, r, l, b]; rfl
    · rw [c, p, f, r, l, b]; rfl
  · intro m
    refine ⟨?_, ?_⟩
    · rintro (rfl | rfl | rfl) <;> decide
    · rintro rfl
      decide

end Sys2Proof.Authorities
end

section
/-! PROOFS. RDSR and WRSR (R10, R306, R307). -/

namespace Sys2Proof.Authorities

open Machine

theorem ctxOperand_eq (k : SlotCtx) (s : State) (x : Word) : ctxOperand (enteredCtx s k) x = namesCtx k x := by
  simp only [ctxOperand, namesCtx, enteredCtx_ctx]
  rfl

/-- What RDSR answers on a lane. -/
def rdsrValue (f : YForm) (k : SlotCtx) (s : State) (l : Nat) : Option Nat :=
  readReg (entered s k) (k.gid, k.entry) k.ctx (namesCtx k (k.rd s f.src l)) f.sysid.toNat

/-- The words of a register's value. -/
def regWords (r v : Nat) : List Word := if sysWords r = 2 then [BitVec.ofNat 32 v, BitVec.ofNat 32 (v / 2 ^ 32)] else [BitVec.ofNat 32 v]

theorem rdsrEff_eq {s : State} {k : SlotCtx} {f : YForm} (h : slotCtx s (.rdsr f) = some k) :
    rdsrEff f (enteredCtx s k) (entered s k) = outFaults (entered s k)
      (k.lanes.filterMap (fun l => (rdsrValue f k s l).map (fun v => (l, regWords f.sysid.toNat v))))
      ((k.lanes.filter (fun l => (rdsrValue f k s l).isNone)).map (fun l => lanesFault l .rights)) := by
  simp only [rdsrEff, ctxOperand_eq, entered_rd h, enteredCtx_lanes, enteredCtx_gid, enteredCtx_entry, enteredCtx_ctx]
  rfl

/-- R306: RDSR answers on every lane, or traps the lanes that may not read. -/
theorem rdsr_lanes (s : State) (k : SlotCtx) (f : YForm) (h : AtSlot s (.rdsr f) k) :
    ((∀ l ∈ k.lanes, (rdsrValue f k s l).isSome = true) →
      exec (.rdsr f) s = .next (ended (entered s k) (enteredCtx s k) (onLanes k (fun l => regWords f.sysid.toNat ((rdsrValue f k s l).getD 0))))) ∧
    (isSplit k.u = true → (∃ l ∈ k.lanes, rdsrValue f k s l = none) → ∃ c, exec (.rdsr f) s = .next (trapAt (entered s k) (enteredCtx s k)
      ⟨0, (k.lanes.filter (fun l => (rdsrValue f k s l).isNone)).map (fun l => (l, ⟨.rights, 0, 0⟩))⟩ c)) :=
  ⟨fun hv => slotStep_done h ((rdsrEff_eq h.here).trans (outFaults_answers _ _ _ _ 0 _ hv)),
    fun hu hv => slotStep_trap h hu ((rdsrEff_eq h.here).trans (outFaults_unanswered _ _ _ _ _ hv))⟩

/-- R10, R307: what an owner reads of its own registers and of the operator's. -/
theorem registerReads : RegisterReadsRule := by
  refine ⟨rdsr_lanes, ?_, ?_⟩
  · intro s gid e c r g hl hg x
    have hx : s.ctx? c = some x := ctx?_of_liveCtx hl
    have hG := State.getGroup_of hg
    have whole (r n : Nat) := readReg_self_whole (who := (gid, e)) (r := r) (n := n) hl
    refine ⟨fun ha hs hp => ?_, whole 0x03 31 rfl (BitVec.isLt _), fun h => ?_, fun h => ?_, fun h1 h2 => ?_, whole 0x08 63 rfl (BitVec.isLt _),
      whole 0x09 31 rfl (BitVec.isLt _), whole 0x0A 31 rfl (BitVec.isLt _), whole 0x0B 31 rfl (BitVec.isLt _), ?_, whole 0x0D 31 rfl (BitVec.isLt _),
      whole 0x0E 31 rfl (BitVec.isLt _), whole 0x0F 63 rfl (BitVec.isLt _), whole 0x10 31 rfl (BitVec.isLt _), fun h => ?_,
      whole 0x12 63 rfl (BitVec.isLt _), whole 0x15 31 rfl (BitVec.isLt _), whole 0x16 31 rfl (BitVec.isLt _), whole 0x1D 63 rfl (BitVec.isLt _), ?_⟩
    · rw [readReg_self hl]
      exact congrArg some (readFields_auth _ ha hs hp)
    · subst hG
      exact whole 0x05 63 rfl h
    · subst hG
      exact whole 0x06 31 rfl h
    · subst hG
      exact whole 0x07 63 rfl (by show (s.getGroup gid).maxDepth * 2 ^ 32 + (s.getGroup gid).burst < 2 ^ 64; omega)
    · subst hG
      exact whole 0x0C 31 rfl (BitVec.isLt _)
    · have hn : x.num = c := ctx?_num hx
      exact whole 0x11 31 rfl (by show x.num < 2 ^ 32; omega)
    · rintro (rfl | rfl | rfl | rfl | rfl) <;> exact readReg_self hl
  · intro s who a c r hne
    refine ⟨fun hl => ?_, fun ha => ?_, fun ha hp => ?_, fun hr => readReg_perGroup ?_ hne⟩
    · exact readReg_out_of_reach (by simp [cellAuth, hl])
    · exact readReg_out_of_reach (by simp [cellAuth, hne, ha])
    · exact readReg_out_of_reach (by simp [cellAuth, hne, ha, hp])
    · rcases hr with rfl | rfl | rfl | rfl | rfl <;> rfl

/-- The write of one lane of WRSR (R307). -/
def wrsrStep (f : YWForm) (k : SlotCtx) (s t : State) (l : Nat) : State :=
  writeReg t (k.gid, k.entry) (namesCtx k (k.rd s f.ctx l)) f.sysid.toNat (wrsrValue f k s l)

/-- What refuses the write of one lane of WRSR. -/
def wrsrBad (f : YWForm) (k : SlotCtx) (s t : State) (l : Nat) : Option Cause :=
  writeBad t (k.gid, k.entry) k.ctx (namesCtx k (k.rd s f.ctx l)) f.sysid.toNat (wrsrValue f k s l)

theorem wrsrEff_eq {s : State} {k : SlotCtx} {f : YWForm} (h : slotCtx s (.wrsr f) = some k) :
    wrsrEff f (enteredCtx s k) (entered s k) =
      (let x := k.lanes.foldl (laneWrite (wrsrBad f k s) (wrsrStep f k s)) (entered s k, [])
      outFaults x.1 [] x.2) := by
  simp only [wrsrEff, ctxOperand_eq, entered_rd h, entered_rd64 h, enteredCtx_lanes, enteredCtx_gid, enteredCtx_entry, enteredCtx_ctx]
  rfl

/-- R306: WRSR writes lane after lane, or traps the lane whose write is refused. -/
theorem wrsr_lanes (s : State) (k : SlotCtx) (f : YWForm) (h : AtSlot s (.wrsr f) k) :
    ((∀ pre l post, k.lanes = pre ++ l :: post → wrsrBad f k s (pre.foldl (wrsrStep f k s) (entered s k)) l = none) →
      exec (.wrsr f) s = .next (ended (k.lanes.foldl (wrsrStep f k s) (entered s k)) (enteredCtx s k) [])) ∧
    (isSplit k.u = true → ∀ l cause, k.lanes = [l] → wrsrBad f k s (entered s k) l = some cause →
      ∃ c, exec (.wrsr f) s = .next (trapAt (entered s k) (enteredCtx s k) ⟨0, [(l, ⟨cause, 0, 0⟩)]⟩ c)) := by
  refine ⟨fun hb => slotStep_done h ?_, fun hu l cause hl hb => slotStep_trap h hu (t := entered s k) (r := []) ?_⟩
  · rw [wrsrEff_eq h.here, foldl_laneWrite _ _ _ _ _ hb]
    rfl
  · rw [wrsrEff_eq h.here, hl]
    simp only [List.foldl_cons, List.foldl_nil, laneWrite, hb]
    rfl

/-- R10, R126, R198, R306, R307: WRSR lane by lane, and what an owner's write of its own registers does. -/
theorem registerWrites : RegisterWritesRule := by
  refine ⟨wrsr_lanes, ?_, ?_⟩
  · intro s gid e c r v g hc hrun hg res hr hv
    have hl : s.liveCtx c = true := by simp [State.liveCtx, hc, hrun]
    have hw : r ≠ 0x04 ∧ r ≠ 0x14 ∧ (regFields r).all (fun f => f.ow.w) = true ∧ reservedMask (regFields r) = res := by
      rcases hr with rfl | rfl | rfl | rfl | rfl | rfl | rfl | rfl | rfl | rfl | rfl | rfl <;> decide
    obtain ⟨h4, h14, hall, hres⟩ := hw
    have hset : RegisterSet s (writeReg s (gid, e) c r v) gid e c r (if r = 0x0E then max 64 (min 4096 v) else v) g := by
      by_cases hgr : r = 0x05 ∨ r = 0x06 ∨ r = 0x0C
      · exact registerSet_group hg hgr hv
      · exact registerSet_ctx hc hg (r := r) (by simp only [ctxOwnRegs, List.mem_cons, List.not_mem_nil, or_false]; omega) hv
    obtain ⟨g', hg', hwin, hsreg, hpreds, hsplits⟩ := hset.group
    exact ⟨hres ▸ writeBad_self hl h4 h14 hall, g', hg', hset.value, hset.mem, hwin, hsreg, hpreds, hsplits, hset.others⟩
  · intro s gid e c r v hl hr hx
    by_cases h4 : r = 0x04
    · subst h4
      simp [writeBad, cellAuth_self hl]
    · obtain ⟨x, hm, -, hne⟩ := hx h4
      refine writeBad_self_rights hl ?_ ⟨x, hm, hne⟩
      rcases hr with rfl | rfl | rfl | rfl | rfl | rfl | rfl | rfl | rfl | rfl | rfl | rfl | rfl
      · exact absurd rfl h4
      all_goals decide

/-- Settles O40: an owner's fields tile its registers, and a write that passes sets its register and no other. -/
theorem systemRegisters : Obligations.SystemRegisters := ⟨registerReads, registerWrites⟩

end Sys2Proof.Authorities
end

section
/-! PROOFS. PLACE, EVICT, KEYBIND and GSWITCH (R8, R24, R313 to R321). -/

namespace Sys2Proof.Authorities

open Machine

/-- R8, R313 to R315: PLACE of a record that is there to be read. -/
theorem placement : PlacementRule := by
  intro s s1 k f l b hal h56 hr
  refine ⟨fun h h0 => ?_, fun s2 hd n h h0 h1 hok h56' hr' hk hm hn hf hb hc hq => ?_⟩
  · obtain ⟨hop, hbad, hnew⟩ := placeAct_entered false h.at'.here h56 hal hr h0
    refine ⟨fun h1 => slotStep_actWord h (hop h1), fun o h1 ho => slotStep_actWord h (hbad o h1 ho), fun n h1 hok hn hf hb hc hq => ?_⟩
    have hact := placeNew_eq (k := enteredCtx s k) (image := none) hn hf hb (by rwa [enteredCtx_ctx]) (by rwa [enteredCtx_ctx])
    rw [← (hnew h1 hok).1 rfl] at hact
    exact ⟨addCtx s1 (placedCtx s1 (enteredCtx s k) b none n), placedCtx s1 (enteredCtx s k) b none n, slotStep_actWord h hact, rfl, addCtx_self s1 _, rfl,
      congrArg (fun n => (s1.getCtx n).part) (enteredCtx_ctx s k), rfl, rfl, rfl, rfl, rfl, rfl, rfl, rfl, rfl, rfl, rfl, rfl, rfl, rfl,
      fun m hm => addCtx_ne s1 _ hm⟩
  · obtain ⟨-, -, hnew⟩ := placeAct_entered true h.at'.here h56 hal hr h0
    have h2 := placeBad_restore hok
    have hact := placeNew_eq (k := enteredCtx s k) (image := some (leAt b 40 8)) hn hf hb (by rwa [enteredCtx_ctx]) (by rw [enteredCtx_ctx]; exact fun _ => hq)
    rw [← placeImage_entered h56' hr' hk hm, ← (hnew h1 hok).2 rfl] at hact
    exact ⟨addCtx s2 (placedCtx s2 (enteredCtx s k) b (some (leAt b 40 8)) n), placedCtx s2 (enteredCtx s k) b (some (leAt b 40 8)) n,
      slotStep_actWord h hact, rfl, addCtx_self s2 _, h2, rfl, if_neg (by omega), rfl, rfl⟩

/-- A context that starts to leave on behalf of a waiting act: what EVICT.0 and EVICT.2 leave. -/
theorem evict_leaves {s s0 : State} {i : Instr} {k : SlotCtx} {l : Nat} {c : Ctx} (lv : Leave) (hc : s0.ctx? c.num = some c)
    (hx : exec i s = .next (noteAct (startLeave s0 c.num lv) k l c.num)) :
    ∃ t c', exec i s = .next t ∧ t.ctx? c.num = some c' ∧ c'.leave.isSome = true ∧ (⟨k.gid, k.entry, l, c.num, none⟩ : Act) ∈ t.ctl.acts ∧
      ∀ g ∈ t.groups, g.ctx = c.num → g.resident = true → g.halted = true :=
  ⟨_, _, hx, startLeave_ctx? lv hc, rfl, mem_noteAct .., startLeave_halts s0 c.num lv⟩

/-- EVICT.1 of a context that is there (R24). -/
theorem evictDestroy_ok {s : State} {k : SlotCtx} {f : YForm} {l : Nat} {c : Ctx} (h : OneAct s (.evictDestroy f) k l)
    (hw : (k.word s f.src l 0).toNat = c.num) (hc : s.ctx? c.num = some c) (hp : c.part = (s.getCtx k.ctx).part) (ha : c.auth ≠ 1)
    (h7 : c.run < 7) (hb : actBusy s c.num = false) :
    ∃ t, exec (.evictDestroy f) s = .next (ended t (enteredCtx s k) [(l, [actStatus 0 0])]) ∧ (t.getCtx c.num).run = 7 ∧ HoldsNothing t c.num := by
  obtain ⟨c', hc', hpl⟩ := ctx?_congr (entered_holdings s k) hc
  have hpart : c'.part = ((entered s k).getCtx (enteredCtx s k).ctx).part := by
    rw [enteredCtx_ctx]
    exact (congrArg Ctx.part hpl).trans (hp.trans (congrArg Ctx.part (getCtx_congr (entered_holdings s k) k.ctx)).symm)
  have hsame : c'.plain.run = c.plain.run := congrArg Ctx.run hpl
  have hrun : c'.run < 7 := Nat.lt_of_le_of_lt (Nat.le_of_eq hsame) h7
  have hauth : c'.auth ≠ 1 := fun h1 => ha ((congrArg Ctx.auth hpl).symm.trans h1)
  have hruns : [0, 1, 2, 3, 4, 5, 6].contains c'.run = true := by
    simp only [List.contains_eq_mem, List.mem_cons, List.not_mem_nil, or_false, decide_eq_true_eq]
    omega
  have hact : evictDestroyAct f (enteredCtx s k) (entered s k) l = .word (destroyCtx (entered s k) c.num false) (actStatus 0 0) := by
    unfold evictDestroyAct
    rw [actWord_entered h.at'.here, hw,
      evictable_of hc' hpart hauth (Nat.ne_of_lt hrun) ((actBusy_entered s k c.num).trans hb) hruns, ctx?_num hc', status_eq]
  exact ⟨_, slotStep_actWord h hact, destroyCtx_run hc'⟩

/-- R24, R25, R313, R315, R316: EVICT and KEYBIND. -/
theorem evictionsAndKeys : EvictionsAndKeysRule := by
  refine ⟨?_, ?_, ?_, ?_, ?_, ?_⟩
  · intro s k f i l h hi hflags hnone
    have hctx : (entered s k).ctx? (actWord (enteredCtx s k) (entered s k) f l 0) = none := by rw [actWord_entered h.at'.here]; exact hnone
    have hev (runs : List Nat) (act : Ctx → ActOut) :
        evictable (enteredCtx s k) (entered s k) (actWord (enteredCtx s k) (entered s k) f l 0) runs act = .word (entered s k) (actStatus 2 0) := by
      simp only [evictable, namedCtx, hctx, status_eq]
    rcases hi with rfl | rfl | rfl | rfl
    · exact slotStep_actWord h (hev _ _)
    · exact slotStep_actWord h (hev _ _)
    · exact slotStep_actWord h (hev _ _)
    · refine slotStep_actWord h ?_
      have hfl : ¬2 ≤ actWord (enteredCtx s k) (entered s k) f l 1 := by
        rw [actWord_entered h.at'.here]
        exact Nat.not_le.2 (hflags rfl)
      simp only [keybindAct, if_neg hfl, shellFor, hctx, status_eq]
  · intro s k f l c h hw hc hp ha h7 _ hb
    obtain ⟨t, hx, hrun, hno⟩ := evictDestroy_ok h hw hc hp ha h7 hb
    exact ⟨t, hx, hrun, hno.groups, hno.blocks, hno.queues, hno.ops⟩
  · intro s k f i l c h hi hw hc hp ha hrun hg hb hseals s1 p hplan
    have hc1 : s1.ctx? c.num = some c := by rw [planSeal_inr hplan]; exact hc
    have hb' := (actBusy_entered s k c.num).trans hb
    have hn := (actWord_entered h.at'.here f l 0).trans hw
    rw [← enteredCtx_ctx s k] at hp hplan
    rcases hi with rfl | rfl
    · rw [if_pos rfl, if_pos rfl] at hplan
      exact evict_leaves _ hc1 (slotStep_actWait h (evictAct_waits hn hc hp ha hrun hg hb' hplan))
    · rw [if_neg Instr.noConfusion, if_neg Instr.noConfusion] at hplan
      simp only [← actWord_entered h.at'.here] at hplan
      exact evict_leaves _ hc1 (slotStep_actWait h (evictSealAct_waits hn hc hp ha hrun hg hb' (by rw [entered_ctl]; exact hseals rfl) hplan))
  · intro s k i l a w h hl hi hf
    obtain ⟨act, hact⟩ : ∃ act, ∀ s, exec i s = slotStep i (actEff act) s := by
      cases i <;> cases hi <;> exact ⟨_, fun _ => rfl⟩
    obtain ⟨hwait, hdone⟩ := slotStep_actUnderWay (act := act) h hl hf
    refine ⟨fun hd => (hact s).trans (hwait hd), fun hd => ⟨_, (hact s).trans (hdone w hd), entered_mem s k, fun x => ?_⟩⟩
    simp only [entered_ctl, List.mem_filter, bne_iff_ne]
  · intro s s1 k f l hd h h56 hr
    obtain ⟨hmiss, hfound⟩ := evictDiscardAct_entered h.at'.here h56 hr
    refine ⟨fun hno => slotStep_actWord h (hmiss hno), fun hinst hex => ?_⟩
    obtain ⟨hmem, hseals⟩ := releaseSeal_seals s1 (leAt hd 24 8)
    exact ⟨_, slotStep_actWord h (hfound hinst hex), hmem, hseals⟩
  · intro s k f l c ks h hw hfl hc hp ha hcl h7 him hb hslot hks ht
    obtain ⟨t, c', hclaim, hc', hcla, hrun, hkey, hinc⟩ := claimShell_of_no_image (slot := ks.slot) (acceptInc := (k.word s f.src l 1).toNat == 1) hc him
    rw [← enteredCtx_ctx s k] at hp hslot
    have hact := keybindAct_claims ((actWord_entered h.at'.here f l 0).trans hw) ((Nat.lt_of_le_of_lt (Nat.le_of_eq (actWord_entered h.at'.here f l 1)) hfl)) hc hp ha hcl h7
      ((actBusy_entered s k c.num).trans hb) hslot (by rw [State.keySlot?, entered_ctl]; exact hks) ht
    rw [actWord_entered h.at'.here, hclaim] at hact
    exact ⟨t, c', slotStep_actWord h hact, hc', hcla, hrun, hkey, hinc⟩

/-- R319 to R321: GSWITCH of a record that is there to be read. -/
theorem gangSwitchIssue : GangSwitchIssueRule := by
  intro s s1 k f l b c hal h56 hr hb hc hp hbusy hn act
  have hp' : c.part = (s1.getCtx (enteredCtx s k).ctx).part := by rw [enteredCtx_ctx]; exact hp
  refine ⟨fun hw h hg hrun hl hcl hwf s2 p hplan => ?_, fun hw h hrun im him => ?_, fun hw h hg hrun hl => ?_⟩
  · have hact : saveAct f (enteredCtx s k) (entered s k) l =
        .wait (addSwitch s2 { newSwitch (enteredCtx s k) c (SwitchRec.ofBytes b) l .waiting with plan := p }) c.num := by
      unfold saveAct
      rw [actRecord_entered h.at'.here h56 hal hr, switchFor_of hb hc hp' hbusy (by simp [hg, hrun, hl]), if_neg (Nat.not_le.2 hw)]
      rw [← enteredCtx_ctx s k] at hcl hwf hplan
      have hcl' : bufferReach s1 (enteredCtx s k).ctx (SwitchRec.ofBytes b).clearing ((SwitchRec.ofBytes b).clrSize * 4096) = true := hcl
      have hwf' : bufferReach s1 (enteredCtx s k).ctx (SwitchRec.ofBytes b).windfall ((SwitchRec.ofBytes b).wfSize * 4096) = true := hwf
      have hplan' : planSeal s1 c.num (enteredCtx s k).ctx (SwitchRec.ofBytes b).image (SwitchRec.ofBytes b).imgSize 1 = .inr (s2, p) := hplan
      rw [hcl', hwf', hplan']
      rfl
    exact ⟨_, _, slotStep_actWait h hact, mem_noteAct .., List.mem_append_right _ (List.mem_singleton.2 rfl), rfl, rfl, rfl, rfl⟩
  · have hact : restoreAct f (enteredCtx s k) (entered s k) l =
        .wait (addSwitch s1 { newSwitch (enteredCtx s k) c (SwitchRec.ofBytes b) l .restoring with imageId := im.id }) c.num := by
      unfold restoreAct
      dsimp only
      rw [actRecord_entered h.at'.here h56 hal hr, switchFor_of hb hc hp' hbusy (by simp [hrun]), if_neg (Nat.not_le.2 hw), gangImage_enteredCtx, him]
    exact ⟨_, _, slotStep_actWait h hact, mem_noteAct .., List.mem_append_right _ (List.mem_singleton.2 rfl), rfl, rfl, rfl, rfl, rfl⟩
  · refine slotStep_actWord h ?_
    unfold saveAct
    rw [actRecord_entered h.at'.here h56 hal hr, switchFor_of hb hc hp' hbusy (by simp [hg, hrun, hl]), if_pos hw, status_eq]

/-- Settles O42: each act answers, waits or takes its result as its record and the context it names have it. -/
theorem systemActs : Obligations.SystemActs := ⟨placement, evictionsAndKeys, gangSwitchIssue⟩

end Sys2Proof.Authorities
end

section
/-! SUPPORT. What counting an issue leaves of feeds, groups and time, and the scalars of a group (R34, R295). -/

namespace Sys2Proof.Machine

/-! ## Counting an issue -/

@[simp] theorem entered_now (s : State) (k : SlotCtx) : (entered s k).now = s.now := by
  unfold entered markCounted
  split <;> split <;> rfl

@[simp] theorem entered_feeds (s : State) (k : SlotCtx) : (entered s k).feeds = s.feeds := by
  unfold entered markCounted
  split <;> split <;> rfl

@[simp] theorem entered_feed? (s : State) (k : SlotCtx) (ctx core : Nat) : (entered s k).feed? ctx core = s.feed? ctx core := by
  simp only [State.feed?, entered_feeds]

/-- A split's slot is seen from its own entry of its own group. -/
theorem splitCtx_of_isSplit {s : State} {i : Instr} {k : SlotCtx} (h : slotCtx s i = some k) (hu : isSplit k.u = true) :
    splitCtx s k.gid k.entry i = some k := by
  obtain ⟨gid, entry, hu⟩ := isSplit_iff.1 hu
  unfold slotCtx at h
  split at h
  · obtain ⟨-, hg, he, -⟩ := splitCtx_u h
    rw [hg, he]
    exact h
  · cases hu.symm.trans (progCtx_u h).1
  · cases hu.symm.trans (progCtx_u h).1
  · cases h

/-- Counting an issue leaves all of the issuing group but its splits. -/
theorem entered_group {s : State} {i : Instr} {k : SlotCtx} (h : slotCtx s i = some k) (hu : isSplit k.u = true) :
    ∃ sps, (entered s k).group? k.gid = some { k.g with splits := sps } := by
  obtain ⟨hg, hsp, -⟩ := splitCtx_parts (splitCtx_of_isSplit h hu)
  obtain ⟨sps, _, hm, -⟩ := markCounted_group (ctx := k.ctx) (c := k.c) hg hsp
  obtain ⟨gid, entry, hu⟩ := isSplit_iff.1 hu
  refine ⟨sps, ?_⟩
  simp only [entered, hu]
  exact hm

/-- A split's scalars are those of its group. -/
theorem sword_entered {s : State} {i : Instr} {k : SlotCtx} (h : slotCtx s i = some k) (hu : isSplit k.u = true) (a : BitVec 7) (j : Nat) :
    (enteredCtx s k).sword (a.toNat + j) = k.g.sregOf (a.toNat + j) := by
  have hw : (enteredCtx s k).sword (a.toNat + j) = k.sword (a.toNat + j) := entered_word h (.scalar a) 0 j
  obtain ⟨gid, entry, hu⟩ := isSplit_iff.1 hu
  rw [hw]
  simp only [SlotCtx.sword, SlotCtx.isProg, hu, Bool.false_eq_true, if_false]

/-- The effect parks its unit. -/
theorem slotStep_park {s t : State} {i : Instr} {k : SlotCtx} {eff : SlotCtx → State → Out} {kind : ParkKind} (h : AtSlot s i k)
    (he : eff (enteredCtx s k) (entered s k) = .park t kind) : slotStep i eff s = .next (parkedAt t (enteredCtx s k) kind) :=
  slotStep_eff h he (fun _ _ _ => Out.noConfusion)

/-! ## Lanes that agree -/

theorem lanesOf_ne_nil {m : Mask} (h : m ≠ 0) : lanesOf m ≠ [] := by
  intro he
  refine h (BitVec.eq_of_getLsbD_eq fun i hi => ?_)
  have hi' := List.filter_eq_nil_iff.1 he i (List.mem_range.2 hi)
  simpa using hi'

theorem lowestLane_mem {m : Mask} (h : m ≠ 0) : (lowestLane m).getD 0 ∈ lanesOf m := by
  obtain ⟨l, ls, hl⟩ := List.exists_cons_of_ne_nil (lanesOf_ne_nil h)
  simp [lowestLane, hl]

theorem uniform_of_forall {k : SlotCtx} {s : State} {x : Src} {w : Word} (h : ∀ l ∈ k.lanes, k.rd s x l = w) : k.uniform s x = true := by
  unfold SlotCtx.uniform
  split
  · rfl
  · rename_i l ls hl
    rw [hl] at h
    simp only [List.all_eq_true, beq_iff_eq]
    intro m hm
    rw [h m (List.mem_cons_of_mem l hm), h l List.mem_cons_self]

/-- The running maximum over lanes is a bound that some lane reaches. -/
theorem foldl_max_eq (v : Nat → Nat) {d : Nat} : ∀ (ls : List Nat) (a : Nat), a ≤ d → (∀ l ∈ ls, v l ≤ d) → (a = d ∨ ∃ l ∈ ls, v l = d) →
    ls.foldl (fun a l => max a (v l)) a = d
  | [], _, _, _, hd => by simpa using hd
  | l :: ls, a, ha, hle, hd => by
    have hl := hle l List.mem_cons_self
    refine foldl_max_eq v ls (max a (v l)) (Nat.max_le.2 ⟨ha, hl⟩) (fun m hm => hle m (List.mem_cons_of_mem l hm)) ?_
    rcases hd with rfl | ⟨m, hm, hv⟩
    · exact .inl (Nat.max_eq_left hl)
    · rcases List.mem_cons.1 hm with rfl | hm
      · exact .inl (hv ▸ Nat.max_eq_right (hv ▸ ha))
      · exact .inr ⟨m, hm, hv⟩

/-! ## Runs of scalars -/

@[simp] theorem sregOf_setS_self (g : Group) (i : Nat) (x : Word) : (g.setS i x).sregOf i = x := SMap.get_set_self 0 g.sreg i x

theorem sregOf_setS_ne (g : Group) {i j : Nat} (x : Word) (h : j ≠ i) : (g.setS i x).sregOf j = g.sregOf j := SMap.get_set_ne 0 g.sreg x h

theorem gid_writeWords (kind : Bool) (l : Nat) : ∀ (ws : List Word) (g : Group) (i : Nat), (g.writeWords kind i l ws).gid = g.gid
  | [], _, _ => rfl
  | x :: ws, g, i => by
    refine (gid_writeWords kind l ws _ _).trans ?_
    cases kind <;> rfl

theorem sregOf_writeWords_out (l : Nat) {j : Nat} : ∀ (ws : List Word) (g : Group) (i : Nat), j < i ∨ i + ws.length ≤ j →
    (g.writeWords true i l ws).sregOf j = g.sregOf j
  | [], _, _, _ => rfl
  | x :: ws, g, i, h => by
    simp only [List.length_cons] at h
    exact (sregOf_writeWords_out l ws (g.setS i x) (i + 1) (by omega)).trans (sregOf_setS_ne g x (by omega))

theorem sregOf_writeWords_in (l : Nat) : ∀ (ws : List Word) (g : Group) (i j : Nat), j < ws.length →
    (g.writeWords true i l ws).sregOf (i + j) = ws.getD j 0
  | x :: ws, g, i, 0, _ => (sregOf_writeWords_out l ws (g.setS i x) (i + 1) (by omega)).trans (sregOf_setS_self g i x)
  | x :: ws, g, i, j + 1, h => by
    have ih := sregOf_writeWords_in l ws (g.setS i x) (i + 1) j (Nat.lt_of_succ_lt_succ h)
    rw [Nat.add_assoc, Nat.add_comm 1 j] at ih
    exact ih

end Sys2Proof.Machine
end

section
/-! SUPPORT. Feeds: looking one up, who waits in a pop, and what an append and a pop leave (R67 to R69). -/

namespace Sys2Proof.Machine

/-! ## Looking up a feed -/

theorem feed?_updFeed (s : State) (ctx core : Nat) (f : Feed → Feed) (hf : ∀ x, (f x).ctx = x.ctx ∧ (f x).core = x.core) :
    (s.updFeed ctx core f).feed? ctx core = (s.feed? ctx core).map f := by
  refine (find?_updWhere _ f _ (fun x => by simp [hf]) s.feeds).trans ?_
  refine Option.map_congr fun x hx => ?_
  rw [if_pos (List.find?_some hx)]

/-! ## Splits that wait for a record -/

/-- A split parked in a pop that holds no record yet (R68). -/
def Split.popping (sp : Split) : Prop := ∃ p, sp.st = .parked p ∧ p.kind = .feedpop ∧ p.wake = none

theorem Group.mem_live {g : Group} {e : Nat × Split} : e ∈ g.live ↔ e.1 < 4 ∧ g.split? e.1 = some e.2 := by
  obtain ⟨n, sp⟩ := e
  simp only [Group.live, List.mem_filterMap, List.mem_range, Option.map_eq_some_iff, Prod.mk.injEq]
  constructor
  · rintro ⟨n', hn, sp', hs, rfl, rfl⟩
    exact ⟨hn, hs⟩
  · rintro ⟨hn, hs⟩
    exact ⟨n, hn, sp, hs, rfl, rfl⟩

/-- No split of the context waits on the core: no resident group of theirs holds one. -/
theorem poppers_eq_nil_iff {s : State} {ctx core : Nat} : poppers s ctx core = [] ↔
    ∀ g ∈ s.groups, g.ctx = ctx → g.core = core → g.resident = true → ∀ n < 4, ∀ sp, g.split? n = some sp → ¬ sp.popping := by
  simp only [poppers, List.flatMap_eq_nil_iff, List.mem_filter, List.filterMap_eq_nil_iff, Bool.and_eq_true, beq_iff_eq, Group.mem_live, Prod.forall,
    and_imp]
  refine forall₅_congr fun g _ _ _ _ => ⟨fun h n hn sp hs => ?_, fun h n sp hn hs => ?_⟩
  · rintro ⟨p, hst, hk, hw⟩
    have hnone := h n sp hn hs
    simp [hst, hk, hw] at hnone
  · split
    · rename_i p hst
      refine if_neg fun hp => h n hn sp hs ⟨p, hst, hp.1, ?_⟩
      exact Option.isNone_iff_eq_none.1 hp.2
    · rfl

/-- A change of groups under which no split comes to wait for a record. -/
structure KeepsPoppers (f : Group → Group) : Prop where
  ctx : ∀ g, (f g).ctx = g.ctx
  core : ∀ g, (f g).core = g.core
  resident : ∀ g, (f g).resident = g.resident
  popping : ∀ g n sp, (f g).split? n = some sp → sp.popping → ∃ sp', g.split? n = some sp' ∧ sp'.popping

theorem KeepsPoppers.id : KeepsPoppers fun g => g := ⟨fun _ => rfl, fun _ => rfl, fun _ => rfl, fun _ _ sp hs hp => ⟨sp, hs, hp⟩⟩

theorem KeepsPoppers.ite {f : Group → Group} (hf : KeepsPoppers f) (p : Group → Bool) : KeepsPoppers fun g => if p g then f g else g where
  ctx g := by
    cases p g
    · rfl
    · exact hf.ctx g
  core g := by
    cases p g
    · rfl
    · exact hf.core g
  resident g := by
    cases p g
    · rfl
    · exact hf.resident g
  popping g := by
    cases p g
    · exact KeepsPoppers.id.popping g
    · exact hf.popping g

theorem KeepsPoppers.poppers_nil {f : Group → Group} (hf : KeepsPoppers f) {s t : State} {ctx core : Nat} (ht : t.groups = s.groups.map f)
    (hs : poppers s ctx core = []) : poppers t ctx core = [] := by
  rw [poppers_eq_nil_iff] at hs ⊢
  rw [ht]
  intro g hg hctx hcore hres n hn sp hsp hp
  obtain ⟨g, hm, rfl⟩ := List.mem_map.1 hg
  obtain ⟨sp', hsp', hp'⟩ := hf.popping g n sp hsp hp
  exact hs g hm (hf.ctx g ▸ hctx) (hf.core g ▸ hcore) (hf.resident g ▸ hres) n hn sp' hsp' hp'

/-! ## Counting an issue -/

theorem Group.split?_setSplit_ne (g : Group) {e n : Nat} (x : Option Split) (h : n ≠ e) : (g.setSplit e x).split? n = g.split? n := by
  simp [Group.split?, Group.setSplit, List.getD_eq_getElem?_getD, List.getElem?_set_ne h.symm]

/-- The change that marks the clause of a split as counted (R295). -/
def markClause (entry : Nat) (c : Clause) (g : Group) : Group :=
  match g.split? entry with
  | some sp => g.setSplit entry (some { sp with clause := some c })
  | none => g

theorem keepsPoppers_markClause (entry : Nat) (c : Clause) : KeepsPoppers (markClause entry c) := by
  constructor <;> intro g <;> unfold markClause
  case ctx | core | resident => split <;> rfl
  case popping =>
    split
    · rename_i x hx
      intro n sp hs hp
      by_cases hn : n = entry
      · rw [hn, Group.split?_setSplit g entry x _ hx] at hs
        cases hs
        exact ⟨x, hn ▸ hx, hp⟩
      · rw [Group.split?_setSplit_ne g _ hn] at hs
        exact ⟨sp, hs, hp⟩
    · exact KeepsPoppers.id.popping g

theorem markCounted_groups (s : State) (gid entry ctx : Nat) (c : Clause) : ∃ f, KeepsPoppers f ∧ (markCounted s gid entry ctx c).1.groups = s.groups.map f := by
  unfold markCounted
  split
  · exact ⟨_, KeepsPoppers.id, (List.map_id' s.groups).symm⟩
  · exact ⟨_, (keepsPoppers_markClause entry { c with counted := true }).ite (fun g => g.gid == gid), rfl⟩

theorem entered_groups (s : State) (k : SlotCtx) : ∃ f, KeepsPoppers f ∧ (entered s k).groups = s.groups.map f := by
  unfold entered
  split
  · exact markCounted_groups ..
  all_goals
    refine ⟨_, KeepsPoppers.id, ?_⟩
    rw [List.map_id']
    split <;> rfl

theorem poppers_entered {s : State} {ctx core : Nat} (k : SlotCtx) (h : poppers s ctx core = []) : poppers (entered s k) ctx core = [] := by
  obtain ⟨f, hf, hg⟩ := entered_groups s k
  exact hf.poppers_nil hg h

/-! ## Appending -/

/-- The change that wakes the sleepers of a group of the feed's context and core (R73). -/
def wakeSleepersOf (now ctx core : Nat) (g : Group) : Group :=
  if g.ctx == ctx && g.core == core && g.resident then g.mapParks (wakeSleep now) else g

theorem Group.split?_mapParks (g : Group) (f : Park → Park) (n : Nat) : (g.mapParks f).split? n = (g.split? n).map (mapPark f) := by
  simp only [Group.split?, Group.mapParks, List.getD_eq_getElem?_getD, List.getElem?_map]
  cases g.splits[n]? <;> rfl

@[simp] theorem wakeSleep_kind (now : Nat) (p : Park) : (wakeSleep now p).kind = p.kind := by
  unfold wakeSleep
  split <;> rfl

/-- An append wakes sleepers, and no other waiter. -/
theorem wakeSleep_feedpop (now : Nat) {p : Park} (h : p.kind = .feedpop) : wakeSleep now p = p := by
  simp only [wakeSleep, h]

theorem popping_of_wakeSleep {now : Nat} {sp : Split} (h : (mapPark (wakeSleep now) sp).popping) : sp.popping := by
  obtain ⟨p, hst, hk, hw⟩ := h
  unfold mapPark at hst
  split at hst
  · rename_i q hq
    cases hst
    rw [wakeSleep_kind] at hk
    exact ⟨q, hq, hk, wakeSleep_feedpop now hk ▸ hw⟩
  · exact ⟨p, hst, hk, hw⟩

theorem keepsPoppers_mapParks_wakeSleep (now : Nat) : KeepsPoppers fun g => g.mapParks (wakeSleep now) := by
  refine ⟨fun _ => rfl, fun _ => rfl, fun _ => rfl, fun g n sp hs hp => ?_⟩
  rw [Group.split?_mapParks, Option.map_eq_some_iff] at hs
  obtain ⟨sp', hs', rfl⟩ := hs
  exact ⟨sp', hs', popping_of_wakeSleep hp⟩

/-- Where no pop waits, the record goes to the end of the feed (R68). -/
theorem feedAppend_no_poppers {s : State} {ctx core : Nat} (r : List Word) (h : poppers s ctx core = []) :
    feedAppend s ctx core r =
      ({ s with groups := s.groups.map (wakeSleepersOf s.now ctx core) } : State).updFeed ctx core (fun f => { f with recs := f.recs ++ [r] }) := by
  have hw : poppers ({ s with groups := s.groups.map (wakeSleepersOf s.now ctx core) } : State) ctx core = [] :=
    ((keepsPoppers_mapParks_wakeSleep s.now).ite (fun g => g.ctx == ctx && g.core == core && g.resident)).poppers_nil rfl h
  unfold wakeSleepersOf at hw
  simp only [feedAppend, hw, List.foldl_nil]
  rfl

theorem feed?_feedAppend {s : State} {ctx core : Nat} {q : Feed} (r : List Word) (h : poppers s ctx core = []) (hq : s.feed? ctx core = some q) :
    (feedAppend s ctx core r).feed? ctx core = some { q with recs := q.recs ++ [r] } := by
  rw [feedAppend_no_poppers r h, feed?_updFeed _ _ _ _ (by exact fun _ => ⟨rfl, rfl⟩)]
  exact congrArg (Option.map _) hq

@[simp] theorem feedAppend_mem (s : State) (ctx core : Nat) (r : List Word) : (feedAppend s ctx core r).mem = s.mem := by
  unfold feedAppend
  dsimp only
  split
  · split <;> rfl
  · rfl

/-! ## FEEDPUSH -/

/-- The core that FEEDPUSH names: all ones is its own (R70). -/
def pushCore (k : SlotCtx) (x : Word) : Nat := if x = 0xFFFFFFFF then k.core else x.toNat

/-- A push whose operand is in order answers by the feed it names (R70). -/
theorem feedpushEff_cases {k : SlotCtx} {s : State} {f : VForm} {a : BitVec 7} {x : Word} (hex : k.ex ≠ 0) (hf : f.a = .scalar a) (ha : a.toNat ≤ 112)
    (hx : ∀ l ∈ k.lanes, k.rd s f.b l = x) (hsel : x.toNat < 288 ∨ x = 0xFFFFFFFF) :
    (s.feed? k.ctx (pushCore k x) = none → feedpushEff f k s = outAll k s [2]) ∧
    (∀ q, s.feed? k.ctx (pushCore k x) = some q → q.cap ≤ q.recs.length → feedpushEff f k s = outAll k s [0]) ∧
    (∀ q, s.feed? k.ctx (pushCore k x) = some q → q.recs.length < q.cap →
      feedpushEff f k s = outAll k (feedAppend s k.ctx (pushCore k x) ((List.range 16).map (fun j => k.sword (a.toNat + j)))) [1]) := by
  have hlow : k.rd s f.b ((lowestLane k.ex).getD 0) = x := hx _ (lowestLane_mem hex)
  have hall : x.toNat = 0xFFFFFFFF ↔ x = 0xFFFFFFFF := (BitVec.toNat_inj (y := 0xFFFFFFFF#32))
  have hin : ¬ (288 ≤ x.toNat ∧ x.toNat ≠ 0xFFFFFFFF) := fun hbad => hsel.elim (Nat.not_lt.2 hbad.1) fun he => hbad.2 (hall.2 he)
  unfold pushCore
  simp only [feedpushEff, hf, Nat.not_lt.2 ha, if_false, hex, uniform_of_forall hx, Bool.not_true, Bool.false_eq_true, hlow, hin, hall]
  refine ⟨fun hq => ?_, fun q hq hfull => ?_, fun q hq hroom => ?_⟩
  · simp only [hq]
  · simp only [hq, if_pos hfull]
  · simp only [hq, if_neg (Nat.not_le.2 hroom)]

/-! ## FEEDPOP -/

/-- The words a pop leaves from its first scalar on: status and record (R69). -/
def popWords (st : Word) (rec : List Word) : List Word := st :: (List.range 16).map (fun j => rec.getD j 0)

theorem popWords_record (st : Word) (rec : List Word) {j : Nat} (h : j < 16) : (popWords st rec).getD (j + 1) 0 = rec.getD j 0 := by
  simp [popWords, List.getD_eq_getElem?_getD, List.getElem?_range h]

theorem popDone_eq {f : VForm} (hd : f.dst.sup = false) (k : SlotCtx) (s : State) (st : Word) (rec : List Word) :
    popDone f k s st rec = outAll k (s.updGroup k.gid (fun g => g.writeWords true f.dst.idx.toNat 0 (popWords st rec)))
      [st, rec.getD 0 0, rec.getD 1 0, rec.getD 2 0] := by
  simp only [popDone, hd, Bool.false_eq_true, if_false]
  rfl

/-- A pop that has not parked answers from the feed of its own core (R69). -/
theorem feedpopEff_unparked {m : PopKind} {f : VForm} {k : SlotCtx} {s : State} (hi : f.dst.idx.toNat ≤ 111) (hp : k.park = none) (hex : k.ex ≠ 0) :
    feedpopEff m f k s = popNow m f k s false := by
  simp only [feedpopEff, Nat.not_lt.2 hi, decide_false, Bool.and_false, Bool.false_eq_true, if_false, hp, hex]

theorem popNow_no_feed {k : SlotCtx} {s : State} (h : s.feed? k.ctx k.core = none) (m : PopKind) (f : VForm) (parked : Bool) :
    popNow m f k s parked = popDone f k s 2 [] := by
  simp only [popNow, h]

theorem popNow_head {k : SlotCtx} {s : State} {q : Feed} {r : List Word} {rs : List (List Word)} (h : s.feed? k.ctx k.core = some q) (hr : q.recs = r :: rs)
    (m : PopKind) (f : VForm) (parked : Bool) :
    popNow m f k s parked = popDone f k (s.updFeed k.ctx k.core (fun q => { q with recs := rs })) 1 r := by
  simp only [popNow, h, hr]

theorem popNow_empty {k : SlotCtx} {s : State} {q : Feed} (h : s.feed? k.ctx k.core = some q) (hr : q.recs = []) (f : VForm) :
    popNow .nonBlocking f k s false = popDone f k s 0 [] ∧ popNow .blocking f k s false = .park s .feedpop := by
  simp only [popNow, h, hr, Bool.false_eq_true, if_false, and_self]

/-! ## SLEEP -/

/-- A sleep parks until the latest time its lanes name; no time at all answers 0 (R73). -/
theorem sleepEff_unparked {f : VForm} {k : SlotCtx} {s : State} {d : Nat} (hp : k.park = none) (hex : k.ex ≠ 0)
    (hle : ∀ l ∈ k.lanes, (k.rd s f.a l).toNat ≤ d) (hd : ∃ l ∈ k.lanes, (k.rd s f.a l).toNat = d) :
    sleepEff f k s = if d = 0 then outAll k s [0] else .park s (.sleep (s.now + d)) := by
  simp only [sleepEff, hp, hex, if_false, foldl_max_eq (fun l => (k.rd s f.a l).toNat) k.lanes 0 (Nat.zero_le d) hle (.inr hd)]

theorem sleepEff_woken {f : VForm} {k : SlotCtx} {s : State} {p : Park} {r : Nat} (hp : k.park = some p) (hw : p.wake = some r) :
    sleepEff f k s = outAll k s [BitVec.ofNat 32 r] := by
  simp only [sleepEff, hp, hw]

/-- Waking a parked split changes its park alone. -/
theorem wakePark_group {s : State} {gid entry : Nat} {g : Group} {sp : Split} {p : Park} (f : Park → Park) (hg : s.group? gid = some g)
    (hs : g.split? entry = some sp) (hp : sp.st = .parked p) :
    (wakePark s gid entry f).group? gid = some (g.setSplit entry (some { sp with st := .parked (f p) })) := by
  unfold wakePark
  rw [State.updGroup_self hg (fun x => by split <;> rfl)]
  simp only [hs, mapPark, hp]

end Sys2Proof.Machine
end

section
/-! PROOFS. FEEDPUSH, FEEDPOP and SLEEP (R68 to R70, R73). -/

namespace Sys2Proof.GroupsAndLaunch

open Machine

/-- R68, R70: FEEDPUSH answers by the feed it names, and appends where there is room. -/
theorem feedpush_answers {s : State} {k : SlotCtx} {f : VForm} {a : BitVec 7} {x : Word} (h : AtSlot s (.feedpush f) k) (hu : isSplit k.u = true)
    (hex : k.ex ≠ 0) (hf : f.a = .scalar a) (ha : a.toNat ≤ 112) (hx : ∀ l ∈ k.lanes, k.rd s f.b l = x) (hsel : x.toNat < 288 ∨ x = 0xFFFFFFFF) :
    (s.feed? k.ctx (pushCore k x) = none →
      exec (.feedpush f) s = .next (ended (entered s k) (enteredCtx s k) (onLanes k (fun _ => [2])))) ∧
    (∀ q, s.feed? k.ctx (pushCore k x) = some q → q.cap ≤ q.recs.length →
      exec (.feedpush f) s = .next (ended (entered s k) (enteredCtx s k) (onLanes k (fun _ => [0])))) ∧
    (∀ q, s.feed? k.ctx (pushCore k x) = some q → q.recs.length < q.cap → poppers s k.ctx (pushCore k x) = [] →
      ∃ t, exec (.feedpush f) s = .next (ended t (enteredCtx s k) (onLanes k (fun _ => [1]))) ∧ t.mem = s.mem ∧
        ∃ q', t.feed? k.ctx (pushCore k x) = some q' ∧ q'.recs = q.recs ++ [(List.range 16).map (fun j => k.g.sregOf (a.toNat + j))]) := by
  have hcore : pushCore (enteredCtx s k) x = pushCore k x := by simp only [pushCore, enteredCtx_core]
  obtain ⟨hnone, hfull, hroom⟩ := feedpushEff_cases (k := enteredCtx s k) (s := entered s k) (by rwa [enteredCtx_ex]) hf ha
    (fun l hl => (entered_rd h.here f.b l).trans (hx l (by rwa [enteredCtx_lanes] at hl))) hsel
  simp only [enteredCtx_ctx, hcore, entered_feed?, outAll, enteredCtx_lanes, sword_entered h.here hu] at hnone hfull hroom
  refine ⟨fun hq => slotStep_done h (hnone hq), fun q hq hc => slotStep_done h (hfull q hq hc), fun q hq hc hp => ⟨_, slotStep_done h (hroom q hq hc), ?_⟩⟩
  exact ⟨(feedAppend_mem ..).trans (entered_mem s k), _, feed?_feedAppend _ (poppers_entered k hp) ((entered_feed? ..).trans hq), rfl⟩

/-- What a pop leaves: status and record in the slot's result and the group's scalars, and `feeds` of the feeds (R69). -/
def Popped (s : State) (k : SlotCtx) (m : PopKind) (f : VForm) (feeds : List Feed) (st : Word) (rec : List Word) : Prop :=
  ∃ u, exec (.feedpop m f) s = .next (ended u (enteredCtx s k) (onLanes k (fun _ => [st, rec.getD 0 0, rec.getD 1 0, rec.getD 2 0]))) ∧
    u.feeds = feeds ∧ u.mem = s.mem ∧ (u.getGroup k.gid).sregOf f.dst.idx.toNat = st ∧
    (∀ j < 16, (u.getGroup k.gid).sregOf (f.dst.idx.toNat + 1 + j) = rec.getD j 0) ∧
    ∀ j, j < f.dst.idx.toNat ∨ f.dst.idx.toNat + 16 < j → (u.getGroup k.gid).sregOf j = k.g.sregOf j

/-- A pop whose effect is `popDone` on feeds and nothing else. -/
theorem popped_of_popDone {s t : State} {k : SlotCtx} {m : PopKind} {f : VForm} {st : Word} {rec : List Word} (h : AtSlot s (.feedpop m f) k)
    (hu : isSplit k.u = true) (hd : f.dst.sup = false) (hg : t.groups = (entered s k).groups) (hm : t.mem = s.mem)
    (he : feedpopEff m f (enteredCtx s k) (entered s k) = popDone f (enteredCtx s k) t st rec) : Popped s k m f t.feeds st rec := by
  obtain ⟨sps, hgrp⟩ := entered_group h.here hu
  have hgrp' : t.group? k.gid = some { k.g with splits := sps } := by rw [State.group?, hg]; exact hgrp
  rw [popDone_eq hd] at he
  simp only [outAll, enteredCtx_lanes, enteredCtx_gid] at he
  refine ⟨_, slotStep_done h he, rfl, hm, ?_⟩
  rw [State.getGroup_of (State.updGroup_self hgrp' (gid_writeWords true 0 _ · _))]
  refine ⟨sregOf_writeWords_in 0 _ _ _ 0 (by simp [popWords]), fun j hj => ?_, fun j hj => ?_⟩
  · rw [Nat.add_assoc, Nat.add_comm 1 j, sregOf_writeWords_in 0 _ _ _ (j + 1) (by simp [popWords]; omega), popWords_record st rec hj]
  · exact sregOf_writeWords_out 0 _ _ _ (by simp only [popWords, List.length_cons, List.length_map, List.length_range]; omega)

/-- R69: FEEDPOP takes the head of its core's feed, or answers or parks where there is none. -/
theorem feedpop_answers {s : State} {k : SlotCtx} {m : PopKind} {f : VForm} (h : AtSlot s (.feedpop m f) k) (hu : isSplit k.u = true) (hex : k.ex ≠ 0)
    (hp : k.park = none) (hd : f.dst.sup = false) (hi : f.dst.idx.toNat ≤ 111) :
    (s.feed? k.ctx k.core = none → Popped s k m f s.feeds 2 []) ∧
    (∀ q r rs, s.feed? k.ctx k.core = some q → q.recs = r :: rs →
      Popped s k m f (s.updFeed k.ctx k.core (fun q => { q with recs := rs })).feeds 1 r) ∧
    (∀ q, s.feed? k.ctx k.core = some q → q.recs = [] → m = .nonBlocking → Popped s k m f s.feeds 0 []) ∧
    (∀ q, s.feed? k.ctx k.core = some q → q.recs = [] → m = .blocking →
      exec (.feedpop m f) s = .next (parkedAt (entered s k) (enteredCtx s k) .feedpop)) := by
  have heff : feedpopEff m f (enteredCtx s k) (entered s k) = popNow m f (enteredCtx s k) (entered s k) false :=
    feedpopEff_unparked hi (by rwa [enteredCtx_park]) (by rwa [enteredCtx_ex])
  have hfeed : (entered s k).feed? (enteredCtx s k).ctx (enteredCtx s k).core = s.feed? k.ctx k.core := by
    rw [enteredCtx_ctx, enteredCtx_core, entered_feed?]
  refine ⟨fun hq => ?_, fun q r rs hq hr => ?_, fun q hq hr hm => ?_, fun q hq hr hm => ?_⟩
  · rw [← entered_feeds s k]
    exact popped_of_popDone h hu hd rfl (entered_mem s k) (heff.trans (popNow_no_feed (hfeed.trans hq) m f false))
  · have he := heff.trans (popNow_head (hfeed.trans hq) hr m f false)
    rw [enteredCtx_ctx, enteredCtx_core] at he
    simp only [State.updFeed]
    rw [← entered_feeds s k]
    exact popped_of_popDone (t := (entered s k).updFeed k.ctx k.core (fun q => { q with recs := rs })) h hu hd rfl (entered_mem s k) he
  · subst hm
    rw [← entered_feeds s k]
    exact popped_of_popDone h hu hd rfl (entered_mem s k) (heff.trans (popNow_empty (hfeed.trans hq) hr f).1)
  · subst hm
    exact slotStep_park h (heff.trans (popNow_empty (hfeed.trans hq) hr f).2)

/-- R73: SLEEP answers 0 for no time, and parks until the latest time its lanes name. -/
theorem sleep_parks {s : State} {k : SlotCtx} {f : VForm} {d : Nat} (h : AtSlot s (.sleep f) k) (hex : k.ex ≠ 0) (hp : k.park = none)
    (hle : ∀ l ∈ k.lanes, (k.rd s f.a l).toNat ≤ d) (hd : ∃ l ∈ k.lanes, (k.rd s f.a l).toNat = d) :
    exec (.sleep f) s = .next (if d = 0 then ended (entered s k) (enteredCtx s k) (onLanes k (fun _ => [0]))
      else parkedAt (entered s k) (enteredCtx s k) (.sleep (s.now + d))) := by
  have heff := sleepEff_unparked (f := f) (k := enteredCtx s k) (s := entered s k) (d := d) (by rwa [enteredCtx_park]) (by rwa [enteredCtx_ex])
    (by simpa only [enteredCtx_lanes, entered_rd h.here] using hle) (by simpa only [enteredCtx_lanes, entered_rd h.here] using hd)
  split
  · rename_i h0
    rw [if_pos h0] at heff
    simp only [outAll, enteredCtx_lanes] at heff
    exact slotStep_done h heff
  · rename_i h0
    rw [if_neg h0, entered_now] at heff
    exact slotStep_park h heff

/-- R73: a SLEEP that has been woken gives the reason. -/
theorem sleep_woken {s : State} {k : SlotCtx} {f : VForm} {p : Park} {r : Nat} (h : AtSlot s (.sleep f) k) (hp : k.park = some p) (hw : p.wake = some r) :
    exec (.sleep f) s = .next (ended (entered s k) (enteredCtx s k) (onLanes k (fun _ => [BitVec.ofNat 32 r]))) := by
  have heff := sleepEff_woken (f := f) (k := enteredCtx s k) (s := entered s k) ((enteredCtx_park s k).trans hp) hw
  simp only [outAll, enteredCtx_lanes] at heff
  exact slotStep_done h heff

/-- R73: a sleep whose time has come is woken with reason 0, and nothing else changes. -/
theorem sleepTimeout_wakes {s : State} {r : SplitRef} {g : Group} {sp : Split} {p : Park} {till : Nat} (hg : s.group? r.gid = some g)
    (hs : g.split? r.entry = some sp) (hp : sp.st = .parked p) (hk : p.kind = .sleep till) (hw : p.wake = none) (ht : till ≤ s.now) :
    ∃ t g', exec (.sleepTimeout r) s = .next t ∧ t = { s with groups := t.groups } ∧ t.group? r.gid = some g' ∧
      g' = g.setSplit r.entry (some { sp with st := .parked { p with wake := some 0 } }) := by
  refine ⟨wakePark s r.gid r.entry (wakeSleepTime s.now), _, rfl, rfl, wakePark_group _ hg hs hp, ?_⟩
  simp only [wakeSleepTime, hk, hw, if_pos ht]

/-- Settles O33: each answer is that of the feed named or of the longest sleep, read as it stood before the issue was counted. -/
theorem feedsAndSleep : Obligations.FeedsAndSleep :=
  ⟨fun _ _ _ _ _ h hu hex hf ha hx hsel => feedpush_answers h hu hex hf ha hx hsel,
    fun _ _ _ _ h hu hex hp hd hi => feedpop_answers h hu hex hp hd hi,
    fun _ _ _ _ h _ hex hp hle hd => sleep_parks h hex hp hle hd,
    fun _ _ _ _ _ h hp hw => sleep_woken h hp hw,
    fun _ _ _ _ _ _ hg hs hp hk hw ht => sleepTimeout_wakes hg hs hp hk hw ht⟩

end Sys2Proof.GroupsAndLaunch
end

section
/-! PROOFS. What a step runs (R76, R98, R221). -/

namespace Sys2Proof.SplitsPlanesJoins

open Machine

/-- A word that reads as an instruction, in order or with a reserved field set, has a slot's major and parses to it. -/
theorem parse_of_decode {w : DWord} {i : Instr} (h : decode w = .ok i ∨ decode w = .reserved i) : ¬ 0xF0 ≤ majorOf w ∧ parse w = some i := by
  unfold decode at h
  split at h
  · simp at h
  · rename_i hm
    refine ⟨hm, ?_⟩
    split at h
    · simp at h
    · rename_i j hj
      have hij : j = i := by
        split at h <;> simpa using h
      rw [hj, hij]

/-- A step with no turn ahead runs what the unit that issued last stands at. -/
theorem step_of_unitNext {s s1 : State} {u : UnitRef} {i : Instr} (ha : s.agenda = []) (hc : s.cur = some u) (hu : unitStands s u = true)
    (hn : unitNext s u = (s1, some i)) : step s = exec i s1 := by
  simp only [step, nextInstr, ha, goOn, hc, hu, if_true, hn]

/-- R76, R98: a split inside a clause stands at the instruction that its word parses to. -/
theorem splitNext_of_parse {s s1 : State} {gid e : Nat} {g : Group} {sp : Split} {c : Clause} {w : DWord} {i : Instr} (hg : s.group? gid = some g)
    (hsp : g.split? e = some sp) (hst : sp.st = .mid) (hc : sp.clause = some c) (hh : c.atHdr = false)
    (hf : fetchCode s g e (if c.handler then 0 else c.plane) (c.off + 8 * (c.slot + 1)) = (s1, .inr w)) (hm : ¬ 0xF0 ≤ majorOf w)
    (hp : parse w = some i) : splitNext s gid e = (s1, some i) := by
  simp only [splitNext, State.getGroup_of hg, hsp, hst, hc, hh, Bool.false_eq_true, if_false, hf, if_neg hm, hp]

/-- R76, R98: a program inside a clause stands at the instruction that its word parses to. -/
theorem progNext_of_parse {s s1 : State} {cl : Nat} {isSeq : Bool} {p : Prog} {c : Clause} {w : DWord} {i : Instr}
    (hprog : s.prog? cl isSeq = some p) (hl : p.live = true) (hs : p.stopped = false)
    (hn : stallStands s (.unit (if isSeq then .seq cl else .eng cl)) = none) (hk : p.park = none) (hc : p.clause = some c)
    (hf : fetchProg s p (c.off + 8 * (c.slot + 1)) = (s1, .inr w)) (hm : ¬ 0xF0 ≤ majorOf w) (hp : parse w = some i) :
    progStands s cl isSeq = true ∧ progNext s cl isSeq = (s1, some i) := by
  have hst : stalled s (if isSeq then .seq cl else .eng cl) = false := by simp [stalled, hn]
  constructor
  · simp only [progStands, hprog, hl, hs, hst, hk, Bool.not_false, Bool.and_self]
  · simp only [progNext, hprog, hl, hs, hst, hk, hc, progAddr, hf, if_neg hm, hp, Bool.not_true, Bool.or_self, Bool.false_eq_true, if_false]

/-- R221: a turn that brings an event runs it once its time has passed and its cached translations have gone. -/
theorem step_event {s : State} {t : Turn} {ts : List Turn} {i : Instr} (ha : s.agenda = t :: ts) (hw : t.who = .event i)
    (hs : i.isSlot = false) (hi : i ≠ .clauseIssue) : step s = exec i (dropTlbs (pass { s with agenda := ts } t.dt t.cyc) t.drops) := by
  have hb : (i == .clauseIssue) = false := beq_false_of_ne hi
  simp only [step, nextInstr, ha, moverNext, hw, hs, hb, Bool.or_self, Bool.false_eq_true, if_false]

/-- Settles O55: the unit that issues stands at what its fetched word parses to, and an event is its own instruction. -/
theorem stepRunsDecoded : Obligations.StepRunsDecoded := by
  refine ⟨?_, ?_, ?_⟩
  · intro s s1 gid e g sp c w i ha hc hg hsp hst hcl hh hr hhalt hready hf hd
    obtain ⟨hm, hp⟩ := parse_of_decode hd
    refine step_of_unitNext ha hc ?_ (splitNext_of_parse hg hsp hst hcl hh hf hm hp)
    simp only [unitStands, State.getGroup_of hg, hsp, hr, hhalt, hready, Bool.not_false, Bool.and_self]
  · intro s s1 cl isSeq p c w i ha hc hprog hl hs hn hk hcl hf hd
    obtain ⟨hm, hp⟩ := parse_of_decode hd
    obtain ⟨hstands, hnext⟩ := progNext_of_parse hprog hl hs hn hk hcl hf hm hp
    refine step_of_unitNext ha hc ?_ ?_
    · cases isSeq <;> exact hstands
    · cases isSeq <;> exact hnext
  · intro s t ts i ha hw hs hi
    exact step_event ha hw hs hi

end Sys2Proof.SplitsPlanesJoins
end

section
/-! SUPPORT. Maps written lane by lane, and the lanes of a mask. -/

namespace Sys2Proof.Machine

/-- A map changed at each of some lanes: each of them has its own change, once, and every other key stays. -/
theorem SMap.get_foldl_modify {β : Type} [DecidableEq β] (d : β) (f : Nat → β → β) {ls : List Nat} (hn : ls.Nodup) (m : SMap β) (a : Nat) :
    (ls.foldl (fun m l => m.set d l (f l (m.get l d))) m).get a d = if a ∈ ls then f a (m.get a d) else m.get a d := by
  induction ls generalizing m with
  | nil => rfl
  | cons l ls ih =>
    obtain ⟨hl, hls⟩ := List.nodup_cons.1 hn
    rw [List.foldl_cons, ih hls]
    by_cases ha : a = l
    · subst ha
      simp only [hl, if_false, List.mem_cons_self, if_true, SMap.get_set_self]
    · simp only [List.mem_cons, ha, false_or, SMap.get_set_ne d m _ ha]

theorem nodup_lanesOf (m : Mask) : (lanesOf m).Nodup := List.nodup_range.filter _

theorem mem_lanesOf {m : Mask} {l : Nat} : l ∈ lanesOf m ↔ m.getLsbD l = true := by
  simp only [lanesOf, List.mem_filter, List.mem_range, and_iff_right_iff_imp]
  exact fun h => BitVec.lt_of_getLsbD h

/-! ## Transfers at their slot (R88) -/

/-- A transfer records its lanes and what they name, and its unit moves on. -/
theorem slotStep_xfer {s : State} {i : Instr} {k : SlotCtx} {eff : SlotCtx → State → Out} {v : SMap Word} (h : AtSlot s i k)
    (he : eff (enteredCtx s k) (entered s k) = .xfer (entered s k) v) :
    slotStep i eff s = .next (transferred (entered s k) (enteredCtx s k) v) :=
  slotStep_eff h he (fun _ _ _ => Out.noConfusion)

/-- The operand recorded is each executing lane's own, and zero for every other lane. -/
theorem get_xferWords (k : SlotCtx) (s : State) (x : Src) (l : Nat) : (xferWords k s x).get l 0 = if l ∈ k.lanes then k.rd s x l else 0 :=
  SMap.get_foldl_modify 0 (fun l _ => k.rd s x l) (nodup_lanesOf k.ex) [] l

/-- An indirect transfer records what its operand read as the slot began. -/
theorem get_xferWords_entered {s : State} {i : Instr} {k : SlotCtx} (h : slotCtx s i = some k) (x : Src) (l : Nat) :
    (xferWords (enteredCtx s k) (entered s k) x).get l 0 = if l ∈ k.lanes then k.rd s x l else 0 := by
  rw [get_xferWords, enteredCtx_lanes, entered_rd h]

end Sys2Proof.Machine
end

section
/-! PROOFS. Transfers at their slot (R88, R100 to R104, R108). -/

namespace Sys2Proof.SplitsPlanesJoins

open Machine

/-- R101 to R104: an indirect transfer is recorded with each executing lane's operand. -/
theorem indirect_recorded {s : State} {i : Instr} {k : SlotCtx} {x : Src} (h : AtSlot s i k)
    (he : exec i s = .next (transferred (entered s k) (enteredCtx s k) (xferWords (enteredCtx s k) (entered s k) x))) :
    ∃ v : SMap Word, (∀ l ∈ k.lanes, v.get l 0 = k.rd s x l) ∧ (∀ l, l ∉ k.lanes → v.get l 0 = 0) ∧
      exec i s = .next (transferred (entered s k) (enteredCtx s k) v) := by
  refine ⟨_, fun l hl => ?_, fun l hl => ?_, he⟩
  · rw [get_xferWords_entered h.here, if_pos hl]
  · rw [get_xferWords_entered h.here, if_neg hl]

/-- Settles O28: every transfer's effect is to be recorded, an indirect one with the words its lanes read. -/
theorem transfersAreRecorded : Obligations.TransfersAreRecorded := by
  refine ⟨fun s k i h hi => ?_, fun s k i f h hi => ?_⟩
  · cases i <;> try exact hi.elim
    case br | bra | call | ret | exit => exact slotStep_xfer h rfl
  · rcases hi with rfl | rfl | rfl
    all_goals exact indirect_recorded h (slotStep_xfer h rfl)

end Sys2Proof.SplitsPlanesJoins
end

section
/-! SUPPORT. What an issuing split sees of its group, and the registers that changes of splits leave (R34, R93, R96). -/

namespace Sys2Proof.Machine

/-- A split sees its own group as it was, but for its splits. -/
theorem enteredCtx_group {s : State} {i : Instr} {k : SlotCtx} (h : slotCtx s i = some k) (hu : isSplit k.u = true) :
    ∃ sps, (enteredCtx s k).g = { k.g with splits := sps } ∧ (entered s k).group? k.gid = some { k.g with splits := sps } := by
  obtain ⟨sps, hg⟩ := entered_group h hu
  refine ⟨sps, ?_, hg⟩
  obtain ⟨gid, entry, hu⟩ := isSplit_iff.1 hu
  simp only [entered, hu] at hg
  simp only [enteredCtx, hu, State.getGroup_of hg]

@[simp] theorem enteredCtx_first (s : State) (k : SlotCtx) : (enteredCtx s k).c.first = k.c.first := by
  unfold enteredCtx
  split
  · simp only [markCounted_clause]
  all_goals rfl

/-- The group whose slot runs, after a change of its own. -/
theorem getGroup_updGroup_entered {s : State} {k : SlotCtx} {g : Group} {f : Group → Group} (hg : (entered s k).group? k.gid = some g)
    (hf : ∀ x, (f x).gid = x.gid) : ((entered s k).updGroup k.gid f).getGroup k.gid = f g :=
  State.getGroup_of (State.updGroup_self hg hf)

/-! ## Changes that leave a group's registers -/

/-- Two groups with the same number, window, scalars, K registers and exited lanes. -/
structure Group.SameRegs (g g' : Group) : Prop where
  gid : g'.gid = g.gid
  win : g'.win = g.win
  sreg : g'.sreg = g.sreg
  kregs : g'.kregs = g.kregs
  exited : g'.exited = g.exited

theorem Group.SameRegs.refl (g : Group) : g.SameRegs g := ⟨rfl, rfl, rfl, rfl, rfl⟩

theorem Group.SameRegs.trans {g g' g'' : Group} (h : g.SameRegs g') (h' : g'.SameRegs g'') : g.SameRegs g'' where
  gid := h'.gid.trans h.gid
  win := h'.win.trans h.win
  sreg := h'.sreg.trans h.sreg
  kregs := h'.kregs.trans h.kregs
  exited := h'.exited.trans h.exited

theorem Group.SameRegs.kreg {g g' : Group} (h : g.SameRegs g') (n : Nat) : g'.kreg n = g.kreg n := by
  simp only [Group.kreg, h.kregs]

theorem Group.sameRegs_setSplit (g : Group) (e : Nat) (x : Option Split) : g.SameRegs (g.setSplit e x) := ⟨rfl, rfl, rfl, rfl, rfl⟩

theorem Group.sameRegs_progress (g : Group) : g.SameRegs g.progress := ⟨rfl, rfl, rfl, rfl, rfl⟩

theorem Group.sameRegs_setDefs (g : Group) (ds : List DefRec) : g.SameRegs { g with defs := ds } := ⟨rfl, rfl, rfl, rfl, rfl⟩

/-- A join moves lanes between splits and records, and no register (R93). -/
theorem joinwAt_sameRegs (g : Group) (k : Nat) (off : Int) (h : Option Nat) : g.SameRegs (joinwAt g k off h) := by
  have hclear (es : List Nat) : g.SameRegs (es.foldl (fun g e => g.setSplit e none) g) :=
    foldl_keeps (fun x => g.SameRegs x) _ (fun x e hx => hx.trans (x.sameRegs_setSplit e none)) es g (.refl g)
  unfold joinwAt
  extract_lets
  split
  · exact .refl g
  · extract_lets merged res home
    split
    · exact .refl g
    · clear_value home
      cases home
      case none => exact (((hclear _).trans (Group.sameRegs_setDefs _ _)).trans (Group.sameRegs_setDefs _ _)).trans (Group.sameRegs_progress _)
      case some => exact (((hclear _).trans (Group.sameRegs_setDefs _ _)).trans (Group.sameRegs_setSplit ..)).trans (Group.sameRegs_progress _)

theorem joinwTest_sameRegs (g : Group) (k : Nat) : g.SameRegs (joinwTest g k) :=
  foldl_keeps (fun x => g.SameRegs x) _ (fun x j hx => hx.trans (joinwAt_sameRegs x k j.sp.offset j.sp.handler)) _ g (.refl g)

theorem joinwTestAll_sameRegs (g : Group) : g.SameRegs (joinwTestAll g) :=
  foldl_keeps (fun x => g.SameRegs x) _ (fun x n hx => hx.trans (joinwTest_sameRegs x n)) _ g (.refl g)

theorem kreg_setK_self (g : Group) (n : Nat) (m : Mask) : (g.setK n m).kreg n = m := SMap.get_set_self 0 g.kregs n m

theorem kreg_setK_ne (g : Group) {n a : Nat} (m : Mask) (h : a ≠ n) : (g.setK n m).kreg a = g.kreg a := SMap.get_set_ne 0 g.kregs m h

/-! ## PLSET (R107) -/

theorem plbrFault_eq (g : Group) (l n : Nat) : plbrFault g (l, n) =
    if 3 < n then some ⟨.bounds, 0, 0⟩ else if g.hdr.planes.getLsbD n then none else some ⟨.planeAbsent, 0, 0⟩ := by
  simp only [plbrFault, Bool.not_eq_true', gt_iff_lt]
  cases g.hdr.planes.getLsbD n <;> rfl

/-- Lanes whose planes all exist take them, and answer with the planes they had. -/
theorem plsetEff_ok {f : VForm} {k : SlotCtx} {s : State} (h : ∀ l ∈ k.lanes, plbrFault k.g (l, (k.rd s f.a l).toNat) = none) :
    plsetEff f k s = .done
      (s.updGroup k.gid (fun g => { g with plane := k.lanes.foldl (fun p l => p.set 0 l (k.rd s f.a l).toNat) g.plane }))
      (k.lanes.map (fun l => (l, [BitVec.ofNat 32 (k.g.plane.get l 0)]))) := by
  have hgood : k.lanes.filter (fun l => (plbrFault k.g (l, (k.rd s f.a l).toNat)).isNone) = k.lanes :=
    List.filter_eq_self.2 fun l hl => by rw [h l hl]; rfl
  have hbad : k.lanes.filterMap (fun l => (plbrFault k.g (l, (k.rd s f.a l).toNat)).map (fun x => (l, x))) = [] :=
    List.filterMap_eq_nil_iff.2 fun l hl => by rw [h l hl]; rfl
  simp only [plsetEff, hgood, hbad, outFaults, List.isEmpty_nil, if_true]

theorem outFaults_of_ne_nil {s : State} {r : List (Nat × List Word)} {fs : List (Nat × LaneFault)} (h : fs ≠ []) :
    outFaults s r fs = .trap s r ⟨0, fs⟩ := by
  cases fs with
  | nil => exact absurd rfl h
  | cons x fs => rfl

/-- Some lane names no plane: each such lane traps. -/
theorem plsetEff_trap {f : VForm} {k : SlotCtx} {s : State} (h : ∃ l ∈ k.lanes, (plbrFault k.g (l, (k.rd s f.a l).toNat)).isSome = true) :
    ∃ t r, plsetEff f k s = .trap t r
      ⟨0, k.lanes.filterMap (fun l => (plbrFault k.g (l, (k.rd s f.a l).toNat)).map (fun x => (l, x)))⟩ := by
  obtain ⟨l, hl, hf⟩ := h
  obtain ⟨x, hx⟩ := Option.isSome_iff_exists.1 hf
  refine ⟨_, _, outFaults_of_ne_nil (List.ne_nil_of_mem (a := (l, x)) (List.mem_filterMap.2 ⟨l, hl, Option.map_eq_some_iff.2 ⟨x, hx, rfl⟩⟩))⟩

/-! ## WDOG and WID (R72, R111) -/

/-- Lanes that agree on a count restart it unless it is zero, and answer the time it had run. -/
theorem wdogEff_uniform {f : VForm} {k : SlotCtx} {s : State} {x : Word} (hex : k.ex ≠ 0) (hx : ∀ l ∈ k.lanes, k.rd s f.a l = x) :
    wdogEff f k s = outAll k (if x = 0 then s else s.updGroup k.gid Group.progress) [BitVec.ofNat 32 (min k.g.wdog 0xFFFFFFFF)] := by
  have hl : k.rd s f.a ((lowestLane k.ex).getD 0) = x := hx _ (lowestLane_mem hex)
  simp only [wdogEff, hex, if_false, uniform_of_forall hx, Bool.not_true, Bool.false_eq_true, hl, ne_eq, ite_not]

/-- The words that WID answers to a lane that names field `n` (R72). -/
def widWords (widths : List Nat) (w : DWord) (n : Nat) : List Word :=
  if n ≤ 5 then [BitVec.ofNat 32 (w.toNat / 2 ^ ((widths.take n).sum) % 2 ^ (widths.getD n 0))]
  else if n = 6 then [BitVec.ofNat 32 w.toNat, BitVec.ofNat 32 (w.toNat / 2 ^ 32)] else [0]

theorem widField_eq (widths : List Nat) (w : DWord) (n : Nat) :
    widField widths w n = w.toNat / 2 ^ ((widths.take n).sum) % 2 ^ (widths.getD n 0) := by
  rw [widField, bitsOf, List.sum_eq_foldl_nat]

theorem extract_halves (w : DWord) : w.extractLsb' 0 32 = BitVec.ofNat 32 w.toNat ∧ w.extractLsb' 32 32 = BitVec.ofNat 32 (w.toNat / 2 ^ 32) := by
  simp only [BitVec.extractLsb', Nat.shiftRight_eq_div_pow, Nat.pow_zero, Nat.div_one, and_self]

/-- WID answers where no lane asks for both halves, or its destination holds both. -/
theorem widEff_eq {f : VForm} {k : SlotCtx} {s : State} (h : dstIn k.g.vregs 128 f.dst 2 = true ∨ ∀ l ∈ k.lanes, (k.rd s f.a l).toNat ≠ 6) :
    widEff f k s = .done s (k.lanes.map (fun l => (l, widWords k.g.hdr.widths (k.g.wid.get l 0) (k.rd s f.a l).toNat))) := by
  have hno : (k.lanes.any (fun l => (k.rd s f.a l).toNat == 6) && !dstIn k.g.vregs 128 f.dst 2) = false := by
    rcases h with h | h
    · simp [h]
    · have : k.lanes.any (fun l => (k.rd s f.a l).toNat == 6) = false := by simpa using h
      rw [this, Bool.false_and]
  simp only [widEff, hno, Bool.false_eq_true, if_false, widWords, widField_eq, extract_halves]

end Sys2Proof.Machine
end

section
/-! PROOFS. KSET, PLSET, YIELD, WDOG and WID (R72, R106, R107, R109, R111). -/

namespace Sys2Proof.SplitsPlanesJoins

open Machine

/-- R106: KSET sets its K register at a clause's first issue and adds to it at the later ones. -/
theorem kset_sets {s : State} {k : SlotCtx} {f : BForm} (h : AtSlot s (.kset f) k) (hu : isSplit k.u = true) :
    ∃ t, exec (.kset f) s = .next (ended t (enteredCtx s k) []) ∧ t.mem = s.mem ∧
      (t.getGroup k.gid).kreg f.kidx.toNat = (if k.c.first then k.ex else k.g.kreg f.kidx.toNat ||| k.ex) ∧
      ∀ n, n ≠ f.kidx.toNat → (t.getGroup k.gid).kreg n = k.g.kreg n := by
  obtain ⟨sps, -, hg⟩ := enteredCtx_group h.here hu
  have hsame (g : Group) (m : Mask) := joinwTest_sameRegs (g.setK f.kidx.toNat m) f.kidx.toNat
  refine ⟨_, slotStep_done h rfl, entered_mem s k, ?_⟩
  simp only [enteredCtx_gid, enteredCtx_first, enteredCtx_ex]
  rw [getGroup_updGroup_entered hg (fun x => (hsame x _).gid)]
  refine ⟨?_, fun n hn => ?_⟩
  · rw [(hsame _ _).kreg, kreg_setK_self]
    rfl
  · rw [(hsame _ _).kreg, kreg_setK_ne _ _ hn]
    rfl

/-- What PLSET reads of a lane as the slot begins: the fault of the plane it names, if that plane does not exist. -/
theorem plbrFault_entered {s : State} {k : SlotCtx} {f : VForm} (h : AtSlot s (.plset f) k) (hu : isSplit k.u = true) (l : Nat) :
    plbrFault (enteredCtx s k).g (l, ((enteredCtx s k).rd (entered s k) f.a l).toNat) = plbrFault k.g (l, (k.rd s f.a l).toNat) := by
  obtain ⟨sps, hk, -⟩ := enteredCtx_group h.here hu
  rw [entered_rd h.here, hk]
  rfl

/-- R107: PLSET gives each executing lane its plane and answers the one it had. -/
theorem plset_sets {s : State} {k : SlotCtx} {f : VForm} (h : AtSlot s (.plset f) k) (hu : isSplit k.u = true)
    (hp : ∀ l ∈ k.lanes, (k.rd s f.a l).toNat ≤ 3 ∧ k.g.hdr.planes.getLsbD (k.rd s f.a l).toNat = true) :
    ∃ t, exec (.plset f) s = .next (ended t (enteredCtx s k) (onLanes k (fun l => [BitVec.ofNat 32 (k.g.plane.get l 0)]))) ∧ t.mem = s.mem ∧
      (∀ l ∈ k.lanes, (t.getGroup k.gid).plane.get l 0 = (k.rd s f.a l).toNat) ∧
      ∀ l, l ∉ k.lanes → (t.getGroup k.gid).plane.get l 0 = k.g.plane.get l 0 := by
  obtain ⟨sps, hk, hg⟩ := enteredCtx_group h.here hu
  have hok : ∀ l ∈ (enteredCtx s k).lanes, plbrFault (enteredCtx s k).g (l, ((enteredCtx s k).rd (entered s k) f.a l).toNat) = none := by
    intro l hl
    rw [enteredCtx_lanes] at hl
    obtain ⟨hle, hbit⟩ := hp l hl
    rw [plbrFault_entered h hu]
    rw [plbrFault_eq, if_neg (Nat.not_lt.2 hle), if_pos hbit]
  have heff := plsetEff_ok hok
  simp only [enteredCtx_lanes, enteredCtx_gid, entered_rd h.here, hk] at heff
  have hget (l : Nat) := SMap.get_foldl_modify 0 (fun l _ => (k.rd s f.a l).toNat) (nodup_lanesOf k.ex) k.g.plane l
  refine ⟨_, slotStep_done h heff, entered_mem s k, ?_⟩
  rw [getGroup_updGroup_entered hg]
  · exact ⟨fun l hl => (hget l).trans (if_pos hl), fun l hl => (hget l).trans (if_neg hl)⟩
  · exact fun _ => rfl

/-- R107: PLSET traps the lanes that name no plane. -/
theorem plset_traps {s : State} {k : SlotCtx} {f : VForm} (h : AtSlot s (.plset f) k) (hu : isSplit k.u = true)
    (hbad : ∃ l ∈ k.lanes, (plbrFault k.g (l, (k.rd s f.a l).toNat)).isSome = true) :
    ∃ c, exec (.plset f) s = .next (trapAt (entered s k) (enteredCtx s k)
      ⟨0, k.lanes.filterMap (fun l => (plbrFault k.g (l, (k.rd s f.a l).toNat)).map (fun x => (l, x)))⟩ c) := by
  obtain ⟨t, r, heff⟩ := plsetEff_trap (f := f) (k := enteredCtx s k) (s := entered s k) (by simpa only [plbrFault_entered h hu, enteredCtx_lanes] using hbad)
  simp only [plbrFault_entered h hu, enteredCtx_lanes] at heff
  exact slotStep_trap h hu heff

/-- R109: YIELD marks its clause. -/
theorem yield_marks {s : State} {k : SlotCtx} {f : VForm} (h : AtSlot s (.yield f) k) (hex : k.ex ≠ 0) :
    exec (.yield f) s = .next (ended (updClause (entered s k) k.gid k.entry (fun c => { c with yielded := true })) (enteredCtx s k) []) := by
  refine slotStep_done h ?_
  simp only [enteredCtx_ex, if_neg hex, enteredCtx_gid, enteredCtx_entry]
  rfl

/-- R111: WDOG answers the count as it stood, and restarts it unless its lanes name 0. -/
theorem wdog_answers {s : State} {k : SlotCtx} {f : VForm} {x : Word} (h : AtSlot s (.wdog f) k) (hu : isSplit k.u = true) (hex : k.ex ≠ 0)
    (hx : ∀ l ∈ k.lanes, k.rd s f.a l = x) :
    exec (.wdog f) s = .next (ended (if x = 0 then entered s k else (entered s k).updGroup k.gid (fun g => { g with wdog := 0 })) (enteredCtx s k)
      (onLanes k (fun _ => [BitVec.ofNat 32 (min k.g.wdog 0xFFFFFFFF)]))) := by
  obtain ⟨sps, hk, -⟩ := enteredCtx_group h.here hu
  have heff := wdogEff_uniform (f := f) (k := enteredCtx s k) (s := entered s k) (x := x) (by rwa [enteredCtx_ex])
    (by simpa only [enteredCtx_lanes, entered_rd h.here] using hx)
  simp only [outAll, enteredCtx_lanes, enteredCtx_gid, hk] at heff
  exact slotStep_done h heff

/-- R72: WID answers each lane the field of its work identifier that it names, or both halves. -/
theorem wid_answers {s : State} {k : SlotCtx} {f : VForm} (h : AtSlot s (.wid f) k) (hu : isSplit k.u = true)
    (hd : f.dst.sup = true ∨ (f.dst.kind = false ∧ f.dst.idx.toNat + 2 ≤ k.g.vregs) ∨ ∀ l ∈ k.lanes, (k.rd s f.a l).toNat ≠ 6) :
    exec (.wid f) s = .next (ended (entered s k) (enteredCtx s k)
      (onLanes k (fun l => widWords k.g.hdr.widths (k.g.wid.get l 0) (k.rd s f.a l).toNat))) := by
  obtain ⟨sps, hk, -⟩ := enteredCtx_group h.here hu
  have hd' : dstIn (enteredCtx s k).g.vregs 128 f.dst 2 = true ∨
      ∀ l ∈ (enteredCtx s k).lanes, ((enteredCtx s k).rd (entered s k) f.a l).toNat ≠ 6 := by
    simp only [hk, enteredCtx_lanes, entered_rd h.here, dstIn, Bool.or_eq_true]
    rcases hd with hsup | ⟨hkind, hidx⟩ | hno
    · exact .inl (.inl hsup)
    · refine .inl (.inr ?_)
      rw [hkind]
      exact decide_eq_true hidx
    · exact .inr hno
  have heff := widEff_eq hd'
  simp only [enteredCtx_lanes, entered_rd h.here, hk] at heff
  exact slotStep_done h heff

/-- Settles O30: each slot's effect, read as its split's group stood when the slot began. -/
theorem controlSlots : Obligations.ControlSlots := by
  refine ⟨fun s k i f hi h => ?_, fun s k f h => slotStep_done h rfl, fun s k f h hu => kset_sets h hu, fun s k f h hu hp => plset_sets h hu hp,
    fun s k f h hu => by simpa only [plbrFault_eq] using plset_traps h hu, fun s k f h _ hex => yield_marks h hex, fun s k f x h hu hex hx => wdog_answers h hu hex hx,
    fun s k f h hu hd => wid_answers h hu hd⟩
  rcases hi with rfl | rfl
  all_goals exact slotStep_done h rfl

end Sys2Proof.SplitsPlanesJoins
end

section
/-! SUPPORT. Where a clause's lanes go: moving a split, dividing it, and lanes by target (R78, R99, R101). -/

namespace Sys2Proof.Machine

theorem Group.split?_setSplit_of_lt (g : Group) {e : Nat} (x : Option Split) (h : e < g.splits.length) : (g.setSplit e x).split? e = x := by
  simp [Group.split?, Group.setSplit, List.getD_eq_getElem?_getD, h]

theorem group?_restore {s : State} {gid : Nat} {g : Group} (hg : s.group? gid = some g) (entry : Nat) (sp : Split) :
    (restore s gid entry sp).group? gid = some (g.setSplit entry (some sp)) :=
  State.updGroup_self hg fun _ => rfl

/-! ## Moving as a whole -/

/-- One part that holds every lane: the split stands at that part's offset with its pending format in force. -/
theorem moveParts_whole {parts : List (Mask × Int)} {sp : Split} {off : Int} (s : State) (gid entry : Nat) (c : Clause)
    (h : parts.filter (fun p => p.1 != 0) = [(sp.mask, off)]) :
    moveParts s gid entry sp (sp.withPend c) parts = .ok (restore s gid entry (sp.atEnd c off)) := by
  simp only [moveParts, h, divide, List.isEmpty_nil, if_true]
  rfl

theorem branchParts_filter_of_left {rest taken : Mask × Int} (hint : BitVec 2) (hr : rest.1 ≠ 0) (ht : taken.1 = 0) :
    (branchParts hint rest taken).filter (fun p => p.1 != 0) = [rest] := by
  have hr' : (rest.1 != 0) = true := bne_iff_ne.2 hr
  have ht' : (taken.1 != 0) = false := bne_eq_false_iff_eq.2 ht
  unfold branchParts
  split <;> simp only [List.filter_cons, hr', ht', Bool.false_eq_true, if_true, if_false, List.filter_nil]

theorem branchParts_filter_of_right {rest taken : Mask × Int} (hint : BitVec 2) (hr : rest.1 = 0) (ht : taken.1 ≠ 0) :
    (branchParts hint rest taken).filter (fun p => p.1 != 0) = [taken] := by
  have hr' : (rest.1 != 0) = false := bne_eq_false_iff_eq.2 hr
  have ht' : (taken.1 != 0) = true := bne_iff_ne.2 ht
  unfold branchParts
  split <;> simp only [List.filter_cons, hr', ht', Bool.false_eq_true, if_true, if_false, List.filter_nil]

/-- No lane takes the branch: the split goes on at the next clause. -/
theorem branchEnd_none {sp : Split} (s : State) (gid entry : Nat) (c : Clause) (f : BForm) (hm : sp.mask ≠ 0) :
    branchEnd s gid entry sp (sp.withPend c) c f 0 = .ok (restore s gid entry (sp.atEnd c c.next)) := by
  have hrest : (sp.withPend c).mask &&& ~~~(0 : Mask) = sp.mask := BitVec.and_allOnes
  refine moveParts_whole s gid entry c ((branchParts_filter_of_left f.hint ?_ rfl).trans ?_)
  · rwa [hrest]
  · rw [hrest]

/-- Every lane takes the branch: the split moves to its target. -/
theorem branchEnd_all {sp : Split} (s : State) (gid entry : Nat) (c : Clause) (f : BForm) (hm : sp.mask ≠ 0) :
    branchEnd s gid entry sp (sp.withPend c) c f sp.mask = .ok (restore s gid entry (sp.atEnd c ((c.off : Int) + f.target.toInt))) :=
  moveParts_whole s gid entry c (branchParts_filter_of_right f.hint (by simp [Split.withPend]) hm)

/-! ## Dividing in two -/

/-- The first free entry heads the free ones. -/
theorem free_entries {g : Group} {e : Nat} (he : e < 4) (hfree : g.split? e = none) (hlow : ∀ e' < e, g.split? e' ≠ none) :
    ∃ es, (List.range 4).filter (fun e => (g.split? e).isNone) = e :: es := by
  have hfind : (List.range 4).find? (fun e => (g.split? e).isNone) = some e := by
    rw [List.find?_range_eq_some]
    refine ⟨by simp [hfree], List.mem_range.2 he, fun j hj => ?_⟩
    simpa [Option.isSome_iff_ne_none] using hlow j hj
  rw [← List.head?_filter] at hfind
  exact List.head?_eq_some_iff.1 hfind

/-- The split that a part becomes in a free entry. -/
def SplitPart.born (p : SplitPart) (sp : Split) (age : Nat) : Split :=
  { sp with mask := p.mask, offset := p.offset, fmt := p.fmt, sfmt := p.sfmt, age := age, st := if p.clause.isSome then .mid else .ready,
            stopped := false, handler := p.handler, joined := false, vect := none, clause := p.clause }

/-- The group with a part in a free entry, younger than all its splits. -/
def Group.birth (sp : Split) (p : SplitPart) (e : Nat) (g : Group) : Group :=
  { g.setSplit e (some (p.born sp g.births)) with issues := g.issues + 1, births := g.births + 1 }

/-- One part takes the first free entry, and no record is written. -/
theorem placeParts_one {s : State} {gid e : Nat} {g : Group} (who : Agent) (sp : Split) (p : SplitPart) (hg : s.group? gid = some g)
    (he : e < 4) (hfree : g.split? e = none) (hlow : ∀ e' < e, g.split? e' ≠ none) :
    placeParts s who gid sp [p] = .ok (s.updGroup gid (Group.birth sp p e)) := by
  obtain ⟨es, hes⟩ := free_entries he hfree hlow
  have hr : List.range 128 = 0 :: (List.range 127).map Nat.succ := List.range_succ_eq_map
  simp only [placeParts, State.getGroup_of hg, hes, List.length_cons, List.drop_succ_cons, List.drop_nil, List.zip_nil_left, List.map_nil,
    List.length_nil, List.any_nil, ne_eq, not_true_eq_false, writeRecords, List.zip_cons_cons, hr,
    List.foldl_cons, List.foldl_nil, List.append_nil, Nat.zero_add, Nat.add_zero]
  rfl

/-- The split of the part that keeps its entry in a division. -/
def Split.keeping (sp : Split) (keep : Mask × Int) : Split :=
  { sp with mask := keep.1, offset := keep.2, sfmt := sp.fmt, st := .ready, clause := none, joined := false }

/-- A division in two: one part keeps the entry, the other takes the first free one as the youngest split (R78). -/
theorem moveParts_two {s : State} {gid entry e : Nat} {g : Group} {sp0 sp : Split} {parts : List (Mask × Int)} {keep other : Mask × Int}
    (hg : s.group? gid = some g) (hsp : g.split? entry = some sp0) (hparts : parts.filter (fun p => p.1 != 0) = [keep, other]) (he : e < 4)
    (hfree : g.split? e = none) (hlow : ∀ e' < e, g.split? e' ≠ none) :
    moveParts s gid entry sp0 sp parts = .ok
      ((restore s gid entry (sp.keeping keep)).updGroup gid
        (Group.birth sp ⟨other.1, other.2, none, sp.handler, sp.fmt, sp.fmt⟩ e)) := by
  have hne : e ≠ entry := fun h => by rw [h, hsp] at hfree; cases hfree
  have hplace := placeParts_one (.unit (.split gid entry)) sp ⟨other.1, other.2, none, sp.handler, sp.fmt, sp.fmt⟩
    (group?_restore hg entry (sp.keeping keep)) he
    ((Group.split?_setSplit_ne g _ hne).trans hfree) (fun e' he' => ?_)
  · simp only [moveParts, hparts, divide, List.isEmpty_cons, Bool.false_eq_true, if_false, List.map_cons, List.map_nil]
    simp only [restore, Split.keeping] at hplace
    simp only [hplace]
    rfl
  · by_cases h : e' = entry
    · rw [h, Group.split?_setSplit g entry sp0 _ hsp]
      exact Option.some_ne_none _
    · rw [Group.split?_setSplit_ne g _ h]
      exact hlow e' he'

/-! ## Lanes by target -/

/-- A lane joins the lanes of its target. -/
def insertTarget (acc : List (Mask × Int)) (x : Nat × Int) : List (Mask × Int) :=
  acc.filter (fun e => e.2 < x.2) ++
    ((acc.filter (fun e => e.2 == x.2)).foldl (fun m e => m ||| e.1) (BitVec.twoPow 128 x.1), x.2) :: acc.filter (fun e => x.2 < e.2)

theorem byTarget_eq (l : List (Nat × Int)) : byTarget l = l.foldl insertTarget [] := rfl

theorem insertTarget_same (m : Mask) (t : Int) (l : Nat) : insertTarget [(m, t)] (l, t) = [(m ||| BitVec.twoPow 128 l, t)] := by
  simp [insertTarget, BitVec.or_comm]

theorem foldl_insertTarget_same (t : Int) (ls : List Nat) (m : Mask) :
    (ls.map (fun l => (l, t))).foldl insertTarget [(m, t)] = [(ls.foldl (fun m l => m ||| BitVec.twoPow 128 l) m, t)] := by
  induction ls generalizing m with
  | nil => rfl
  | cons l ls ih => rw [List.map_cons, List.foldl_cons, insertTarget_same, ih, List.foldl_cons]

/-- Lanes of one target are one part. -/
theorem byTarget_same (t : Int) {ls : List Nat} (h : ls ≠ []) : byTarget (ls.map (fun l => (l, t))) = [(maskOf ls, t)] := by
  obtain ⟨l, ls, rfl⟩ := List.exists_cons_of_ne_nil h
  have hone : insertTarget [] (l, t) = [(0 ||| BitVec.twoPow 128 l, t)] := by simp [insertTarget]
  rw [byTarget_eq, List.map_cons, List.foldl_cons, hone, foldl_insertTarget_same]
  rfl

theorem getLsbD_foldl_twoPow (ls : List Nat) (m : Mask) {i : Nat} (hi : i < 128) :
    (ls.foldl (fun m l => m ||| BitVec.twoPow 128 l) m).getLsbD i = (m.getLsbD i || decide (i ∈ ls)) := by
  induction ls generalizing m with
  | nil => simp
  | cons l ls ih =>
    have hl : (decide (l < 128) && decide (l = i)) = decide (i = l) := by
      by_cases h : i = l
      · simp [← h, hi]
      · simp [h, Ne.symm h]
    rw [List.foldl_cons, ih, BitVec.getLsbD_or, BitVec.getLsbD_twoPow, hl, Bool.or_assoc, ← Bool.decide_or]
    simp only [List.mem_cons]

theorem maskOf_lanesOf (m : Mask) : maskOf (lanesOf m) = m := by
  refine BitVec.eq_of_getLsbD_eq fun i hi => ?_
  rw [maskOf, getLsbD_foldl_twoPow _ _ hi, BitVec.getLsbD_zero, Bool.false_or]
  simp [mem_lanesOf]

/-- Lanes that all go to one offset move their split there. -/
theorem moveParts_indirect {sp : Split} (s : State) (gid entry : Nat) (c : Clause) (d : Nat) (hm : sp.mask ≠ 0) :
    moveParts s gid entry sp (sp.withPend c) (indirectParts (sp.withPend c) c sp.mask ((lanesOf sp.mask).map (fun l => (l, d)))) =
      .ok (restore s gid entry (sp.atEnd c (d : Int))) := by
  have hrest : lanesOf ((sp.withPend c).mask &&& ~~~sp.mask) = [] := by
    rw [Split.withPend, BitVec.and_not_self]
    rfl
  have hb : (sp.mask != 0) = true := bne_iff_ne.2 hm
  refine moveParts_whole s gid entry c ?_
  simp only [indirectParts, List.map_map, Function.comp_def, hrest, List.map_nil, List.append_nil]
  rw [byTarget_same (d : Int) (lanesOf_ne_nil hm), maskOf_lanesOf]
  simp only [List.filter_cons, hb, if_true, List.filter_nil]

end Sys2Proof.Machine
end

section
/-! SUPPORT. What each transfer comes to at its clause's end (R78, R101, R102), and what stays when lanes exit (R95, R108). -/

namespace Sys2Proof.Machine

/-! ## Branches (R101) -/

/-- A branch whose lanes may part acts on its taken lanes. -/
theorem clauseEnd_br {s : State} {gid entry : Nat} {g : Group} {sp : Split} {c : Clause} {m : BrKind} {f : BForm} (hg : s.group? gid = some g)
    (hsp : g.split? entry = some sp) (hx : c.xfer = some (.br m f)) (hm : m = .uniform → c.xT = 0 ∨ c.xT = sp.mask) :
    clauseEnd s gid entry c = branchEnd s gid entry sp (sp.withPend c) c f c.xT := by
  have hno : (m == .uniform && c.xT != 0 && c.xT != sp.mask) = false := by
    simp only [Bool.and_eq_false_iff, beq_eq_false_iff_ne, bne_eq_false_iff_eq]
    by_cases hu : m = .uniform
    · exact (hm hu).imp_left .inr
    · exact .inl (.inl hu)
  simp only [clauseEnd, State.getGroup_of hg, hsp, hx, Split.withPend, hno, Bool.false_eq_true, if_false]

/-- A uniform branch whose lanes part traps them all. -/
theorem clauseEnd_br_parting {s : State} {gid entry : Nat} {g : Group} {sp : Split} {c : Clause} {f : BForm} (hg : s.group? gid = some g)
    (hsp : g.split? entry = some sp) (hx : c.xfer = some (.br .uniform f)) (h0 : c.xT ≠ 0) (hm : c.xT ≠ sp.mask) :
    clauseEnd s gid entry c = .trap (trapAll sp.mask .uniformity 0) s := by
  have hyes : (BrKind.uniform == .uniform && c.xT != 0 && c.xT != sp.mask) = true := by
    simp only [Bool.and_eq_true, bne_iff_ne]
    exact ⟨⟨rfl, h0⟩, hm⟩
  simp only [clauseEnd, State.getGroup_of hg, hsp, hx, Split.withPend, hyes, if_true]

theorem eq_of_and_not_eq_zero {a b : Mask} (h : a &&& ~~~b = 0) (h' : b &&& ~~~a = 0) : a = b := by
  refine BitVec.eq_of_getLsbD_eq fun i hi => ?_
  have e := congrArg (fun x => x.getLsbD i) h
  have e' := congrArg (fun x => x.getLsbD i) h'
  simp only [BitVec.getLsbD_and, BitVec.getLsbD_not, hi, decide_true, Bool.true_and, BitVec.ofNat_eq_ofNat, BitVec.getLsbD_zero] at e e'
  revert e e'
  cases a.getLsbD i <;> cases b.getLsbD i <;> decide

/-- Two parts that both have lanes both move. -/
theorem branchParts_filter_of_both {rest taken : Mask × Int} (hint : BitVec 2) (hr : rest.1 ≠ 0) (ht : taken.1 ≠ 0) :
    (branchParts hint rest taken).filter (fun p => p.1 != 0) = [if hint = 1 then taken else rest, if hint = 1 then rest else taken] := by
  have hr' : (rest.1 != 0) = true := bne_iff_ne.2 hr
  have ht' : (taken.1 != 0) = true := bne_iff_ne.2 ht
  unfold branchParts
  split <;> simp only [List.filter_cons, hr', ht', if_true, List.filter_nil]

theorem Group.split?_birth_self {g : Group} {e : Nat} (sp : Split) (p : SplitPart) (h : e < g.splits.length) :
    (g.birth sp p e).split? e = some (p.born sp g.births) := Group.split?_setSplit_of_lt g _ h

theorem Group.split?_birth_ne (g : Group) {e n : Nat} (sp : Split) (p : SplitPart) (h : n ≠ e) : (g.birth sp p e).split? n = g.split? n :=
  Group.split?_setSplit_ne g _ h

/-! ## Calls and returns (R102) -/

/-- A return offset is written at its lane's own call level. -/
theorem callEntries_spec (g : Group) (entry next : Nat) : ∀ (ls : List Nat) (s s1 : State) (es : List QEntry),
    callEntries g entry next ls s = (s1, .inr es) →
    ∀ e ∈ es, e.data = pieceData e.pa (bytesOfNat 4 next) ∧ e.va = g.levelAt (g.depth.get e.lane 0) e.lane
  | [], s, s1, es, h => by
    cases h
    exact fun _ he => absurd he List.not_mem_nil
  | l :: ls, s, s1, es, h => by
    unfold callEntries at h
    extract_lets va at h
    split at h
    split at h
    · split at h
      rename_i r hr
      cases r with
      | inl t => cases h
      | inr es' =>
        cases h
        have ih := callEntries_spec g entry next ls _ _ es' hr
        intro e he
        rcases List.mem_cons.1 he with rfl | he
        · exact ⟨rfl, rfl⟩
        · exact ih e he
    · cases h

/-- The group once its callers' offsets are queued and they stand one level deeper. -/
def Group.called (callers : List Nat) (es : List QEntry) (g : Group) : Group :=
  { g with queue := g.queue ++ es, issues := g.issues + 1, depth := callers.foldl (fun d l => d.set 0 l (d.get l 0 + 1)) g.depth }

/-- Callers whose levels fit and translate are queued once the move is made. -/
theorem withCalls_ok {s s1 s2 : State} {gid entry : Nat} {g : Group} {sp0 : Split} {c : Clause} {callers : List Nat} {move : State → EndOut}
    {es : List QEntry} (hg : s.group? gid = some g) (hfit : ∀ l ∈ callers, g.depth.get l 0 < 1023 ∧ g.levelFits (g.depth.get l 0) = true)
    (hes : callEntries g entry (c.off + 8 * (c.count + 2)) callers s = (s1, .inr es)) (hmove : move s1 = .ok s2) :
    withCalls s gid entry sp0 c callers move = .ok (s2.updGroup gid (Group.called callers es)) := by
  have hno : callers.any (fun l => decide (g.depth.get l 0 ≥ 1023) || !g.levelFits (g.depth.get l 0)) = false := by
    rw [List.any_eq_false]
    intro l hl
    obtain ⟨hd, hf⟩ := hfit l hl
    simp [hf, hd]
  simp only [withCalls, State.getGroup_of hg, hno, Bool.false_eq_true, if_false, hes, hmove]
  rfl

theorem depth_called {callers : List Nat} (hn : callers.Nodup) (es : List QEntry) (g : Group) (l : Nat) :
    (g.called callers es).depth.get l 0 = if l ∈ callers then g.depth.get l 0 + 1 else g.depth.get l 0 :=
  SMap.get_foldl_modify 0 (fun _ d => d + 1) hn g.depth l

theorem clauseEnd_call {s : State} {gid entry : Nat} {g : Group} {sp : Split} {c : Clause} {f : BForm} (hg : s.group? gid = some g)
    (hsp : g.split? entry = some sp) (hx : c.xfer = some (.call f)) :
    clauseEnd s gid entry c = withCalls s gid entry sp c (lanesOf c.xT) (fun s => branchEnd s gid entry sp (sp.withPend c) c f c.xT) := by
  simp only [clauseEnd, State.getGroup_of hg, hsp, hx]

/-- The group once the lanes that return stand one level up. -/
def Group.returned (ls : List Nat) (g : Group) : Group := { g with depth := ls.foldl (fun d l => d.set 0 l (d.get l 0 - 1)) g.depth }

theorem depth_returned {ls : List Nat} (hn : ls.Nodup) (g : Group) (l : Nat) :
    (g.returned ls).depth.get l 0 = if l ∈ ls then g.depth.get l 0 - 1 else g.depth.get l 0 :=
  SMap.get_foldl_modify 0 (fun _ d => d - 1) hn g.depth l

/-- A return whose lanes all read one offset, and may go there, moves them to it. -/
theorem clauseEnd_ret {s s1 s2 : State} {gid entry d : Nat} {g : Group} {sp : Split} {c : Clause} {f : BForm} (hg : s.group? gid = some g)
    (hsp : g.split? entry = some sp) (hx : c.xfer = some (.ret f)) (hT : c.xT = sp.mask) (hm : sp.mask ≠ 0)
    (hread : readLevels g entry (sp.withPend c) (lanesOf sp.mask) s = (s1, some ([], (lanesOf sp.mask).map (fun l => (l, d)))))
    (hcheck : checkTargets g entry (sp.withPend c) false ((lanesOf sp.mask).map (fun l => (l, d))) s1 =
      (s2, some ([], (lanesOf sp.mask).map (fun l => (l, d))))) :
    clauseEnd s gid entry c = .ok ((restore s2 gid entry (sp.atEnd c (d : Int))).updGroup gid (Group.returned (lanesOf sp.mask))) := by
  have hnone : (lanesOf sp.mask).filterMap (fun l => ([] : List (Nat × LaneFault)).find? (fun x => x.1 == l)) = [] :=
    List.filterMap_eq_nil_iff.2 fun _ _ => rfl
  simp only [clauseEnd, State.getGroup_of hg, hsp, hx, hT, hread, hcheck, List.append_nil, hnone, moveFaulting, List.isEmpty_nil, if_true,
    moveParts_indirect s2 gid entry c d hm, List.foldl_map]
  rfl

/-! ## What stays of a group's registers when lanes exit (R95, R108) -/

/-- The state holds the group `gid` with the registers of `g`. -/
def State.HasRegs (s : State) (gid : Nat) (g : Group) : Prop := ∃ g', s.group? gid = some g' ∧ g.SameRegs g'

theorem State.HasRegs.of_groups {s t : State} {gid : Nat} {g : Group} (h : s.HasRegs gid g) (ht : t.groups = s.groups) : t.HasRegs gid g := by
  obtain ⟨g', hg, hr⟩ := h
  exact ⟨g', by rw [State.group?, ht]; exact hg, hr⟩

theorem State.HasRegs.updGroup {s : State} {gid : Nat} {g : Group} (h : s.HasRegs gid g) (n : Nat) {f : Group → Group} (hf : ∀ x : Group, x.SameRegs (f x)) :
    (s.updGroup n f).HasRegs gid g := by
  obtain ⟨g', hg, hr⟩ := h
  refine ⟨_, (State.updGroup_group s n gid f fun x => (hf x).gid).trans (congrArg _ hg), ?_⟩
  dsimp only
  split
  · exact hr.trans (hf g')
  · exact hr

theorem Group.sameRegs_setSplits (g : Group) (sps : List (Option Split)) : g.SameRegs { g with splits := sps } := ⟨rfl, rfl, rfl, rfl, rfl⟩

theorem Group.sameRegs_setBands (g : Group) (bs : List (Option Band)) : g.SameRegs { g with bands := bs } := ⟨rfl, rfl, rfl, rfl, rfl⟩

theorem barTest_hasRegs {s : State} {gid : Nat} {g : Group} (blk n : Nat) (h : s.HasRegs gid g) : (barTest s blk n).HasRegs gid g := by
  have hfold (gs : List Group) : (gs.foldl (fun s g => s.updGroup g.gid Group.progress) s).HasRegs gid g :=
    foldl_keeps (fun s => s.HasRegs gid g) _ (fun s x hs => hs.updGroup x.gid Group.sameRegs_progress) gs s h
  unfold barTest
  split
  · exact h
  · extract_lets
    split
    · exact h
    · extract_lets
      split
      · exact (hfold _).of_groups rfl
      · exact h

theorem barTestAll_hasRegs {s : State} {gid : Nat} {g : Group} (blk : Nat) (h : s.HasRegs gid g) : (barTestAll s blk).HasRegs gid g :=
  foldl_keeps (fun s => s.HasRegs gid g) _ (fun _ n hs => barTest_hasRegs blk n hs) _ s h

theorem State.HasRegs.ite {s t : State} {gid : Nat} {g : Group} {b : Prop} [Decidable b] (hs : s.HasRegs gid g) (ht : t.HasRegs gid g) :
    (if b then s else t).HasRegs gid g := by
  split
  · exact hs
  · exact ht

theorem rdvTest_hasRegs {s : State} {gid : Nat} {g : Group} (id n : Nat) (h : s.HasRegs gid g) : (rdvTest s id n).HasRegs gid g := by
  unfold rdvTest
  split
  · exact h
  · rename_i f _
    extract_lets r fg mark gOk sOk eOk marked woken wk seqWoken
    have hmarked : marked.HasRegs gid g := h.of_groups rfl
    have hwoken : woken.HasRegs gid g := .ite (hmarked.updGroup f.gid fun x => x.sameRegs_setSplits _) hmarked
    have hseq : seqWoken.HasRegs gid g := .ite (hwoken.of_groups rfl) hwoken
    exact .ite (.ite (hseq.of_groups rfl) hseq) h

theorem rdvTests_hasRegs {s : State} {gid : Nat} {g : Group} (id : Nat) (h : s.HasRegs gid g) :
    ((List.range 8).foldl (fun s n => rdvTest s id n) s).HasRegs gid g :=
  foldl_keeps (fun s => s.HasRegs gid g) _ (fun _ n hs => rdvTest_hasRegs id n hs) _ s h

theorem forkTest_hasRegs {s : State} {gid : Nat} {g : Group} (id : Nat) (h : s.HasRegs gid g) : (forkTest s id).HasRegs gid g := by
  unfold forkTest
  extract_lets tested
  have ht : tested.HasRegs gid g := rdvTests_hasRegs id h
  split
  · exact ht
  · rename_i f _
    extract_lets ended
    have hended : ended.HasRegs gid g := ht.of_groups rfl
    exact .ite ht (hended.updGroup f.gid fun x => x.sameRegs_setSplits _)

theorem leaveGroup_hasRegs {s : State} {gid : Nat} {g : Group} (n : Nat) (h : s.HasRegs gid g) : (leaveGroup s n).HasRegs gid g := by
  unfold leaveGroup
  extract_lets left unpaired banded unforked
  have hunpaired : unpaired.HasRegs gid g := h.of_groups rfl
  have hbanded : banded.HasRegs gid g := hunpaired.updGroup n fun x => x.sameRegs_setBands _
  have hunforked : unforked.HasRegs gid g := by
    simp only [unforked]
    split
    · exact hbanded
    · exact forkTest_hasRegs _ (hbanded.of_groups rfl)
  exact .ite h (hunforked.of_groups rfl)

/-- The group once lanes have exited and left its K registers (R108). -/
def Group.without (x : Mask) (g : Group) : Group :=
  { g with exited := g.exited ||| x, kregs := (g.kregs.map (fun e => (e.1, e.2 &&& ~~~x))).filter (fun e => e.2 != 0) }

/-- Lanes that exit count as exited and leave the K registers; what else their exit sets off touches no register. -/
theorem exitLanes_hasRegs {s : State} {gid : Nat} {g : Group} (x : Mask) (hg : s.group? gid = some g) : (exitLanes s gid x).HasRegs gid (g.without x) := by
  have hexit (g : Group) := joinwTestAll_sameRegs (g.without x)
  unfold exitLanes
  extract_lets joined left tested rdvs
  have hjoined : joined.HasRegs gid (g.without x) := ⟨_, State.updGroup_self hg fun g => (hexit g).gid, hexit g⟩
  have htested : tested.HasRegs gid (g.without x) := barTestAll_hasRegs left.block hjoined
  refine leaveGroup_hasRegs gid ?_
  simp only [rdvs]
  split
  · exact htested
  · exact rdvTests_hasRegs _ htested

/-- A value that a map gives has what its entries and the value of an unlisted key have. -/
theorem SMap.get_of_forall {β : Type} {P : β → Prop} {d : β} (hd : P d) (a : Nat) : ∀ m : SMap β, (∀ e ∈ m, P e.2) → P (m.get a d)
  | [], _ => hd
  | e :: m, h => by
    obtain ⟨he, hm⟩ := List.forall_mem_cons.1 h
    unfold SMap.get SMap.get?
    split
    · exact he
    · exact SMap.get_of_forall hd a m hm

theorem kreg_without (g : Group) (x : Mask) (n : Nat) : (g.without x).kreg n &&& x = 0 := by
  refine SMap.get_of_forall (P := fun m => m &&& x = 0) BitVec.zero_and n _ fun e he => ?_
  obtain ⟨e', -, rfl⟩ := List.mem_map.1 (List.mem_filter.1 he).1
  rw [BitVec.and_assoc, BitVec.not_and_self]
  exact BitVec.and_zero

/-- The group once the lanes `x` have left the split of an entry (R108). -/
def Group.leftBy (entry : Nat) (sp : Split) (c : Clause) (x : Mask) (g : Group) : Group :=
  if sp.mask &&& ~~~x = 0 then (g.setSplit entry none).progress
  else g.setSplit entry (some ({ sp with mask := sp.mask &&& ~~~x }.atEnd c c.next))

theorem Group.sameRegs_leftBy (entry : Nat) (sp : Split) (c : Clause) (x : Mask) (g : Group) : g.SameRegs (g.leftBy entry sp c x) := by
  unfold Group.leftBy
  split
  · exact (g.sameRegs_setSplit entry none).trans (Group.sameRegs_progress _)
  · exact g.sameRegs_setSplit entry _

/-- EXIT's lanes leave their split, then their group. -/
theorem clauseEnd_exit {s : State} {gid entry : Nat} {g : Group} {sp : Split} {c : Clause} {f : VForm} (hg : s.group? gid = some g)
    (hsp : g.split? entry = some sp) (hx : c.xfer = some (.exit f)) (hT : c.xT ≠ 0) :
    clauseEnd s gid entry c = .ok (exitLanes (s.updGroup gid (Group.leftBy entry (sp.withPend c) c c.xT)) gid c.xT) := by
  simp only [clauseEnd, State.getGroup_of hg, hsp, hx, exitEnd, if_neg hT]
  rfl

end Sys2Proof.Machine
end

section
/-! PROOFS. Branches, calls, returns and EXIT at their clause's end (R78, R95, R101, R102, R108). -/

namespace Sys2Proof.SplitsPlanesJoins

open Machine

/-- R78, R101: a branch that divides its split, with the part that HINT names in the split's own entry. -/
theorem branch_divides {s : State} {gid entry e : Nat} {g : Group} {sp : Split} {c : Clause} {m : BrKind} {f : BForm} (hg : s.group? gid = some g)
    (hsp : g.split? entry = some sp) (hx : c.xfer = some (.br m f)) (hsub : c.xT &&& ~~~sp.mask = 0) (hm : m ≠ .uniform) (h0 : c.xT ≠ 0)
    (hT : c.xT ≠ sp.mask) (he : e < 4) (hlen : e < g.splits.length) (hfree : g.split? e = none) (hlow : ∀ e' < e, g.split? e' ≠ none) :
    let rest := (sp.mask &&& ~~~c.xT, c.next)
    let taken := (c.xT, (c.off : Int) + f.target.toInt)
    ∃ t g' a b, clauseEnd s gid entry c = .ok t ∧ t.mem = s.mem ∧ t.group? gid = some g' ∧ g'.split? entry = some a ∧ g'.split? e = some b ∧
      (a.mask, a.offset) = (if f.hint = 1 then taken else rest) ∧ (b.mask, b.offset) = (if f.hint = 1 then rest else taken) ∧
      a.age = sp.age ∧ b.age = g.births ∧ a.st = .ready ∧ b.st = .ready ∧
      a.fmt = c.pend.getD sp.fmt ∧ b.fmt = c.pend.getD sp.fmt ∧ a.sfmt = c.pend.getD sp.fmt ∧ b.sfmt = c.pend.getD sp.fmt := by
  intro rest taken
  have hrest : sp.mask &&& ~~~c.xT ≠ 0 := fun h => hT (eq_of_and_not_eq_zero hsub h)
  have hne : entry ≠ e := fun h => by rw [← h, hsp] at hfree; cases hfree
  have hparts := branchParts_filter_of_both (rest := rest) (taken := taken) f.hint hrest h0
  have hmove := moveParts_two (sp := sp.withPend c) hg hsp hparts he hfree hlow
  have hend := (clauseEnd_br hg hsp hx fun hu => absurd hu hm).trans hmove
  have hlen' (x : Option Split) : e < (g.setSplit entry x).splits.length := by
    simpa only [Group.setSplit, List.length_set] using hlen
  exact ⟨_, _, _, _, hend, rfl, State.updGroup_self (group?_restore hg entry _) fun _ => rfl,
    (Group.split?_birth_ne _ _ _ hne).trans (Group.split?_setSplit g entry sp _ hsp), Group.split?_birth_self _ _ (hlen' _),
    rfl, rfl, rfl, rfl, rfl, rfl, rfl, rfl, rfl, rfl⟩

/-- R78, R101: a branch moves its split as a whole where its lanes agree, traps where they must, and divides it otherwise. -/
theorem branchesDivide : Sys2Proof.BranchesDivideRule := by
  intro s gid entry g sp c m f hg hsp _ hx hsub hm target moved
  refine ⟨fun h0 => ?_, fun hT => ?_, fun hu h0 hT => ?_, fun hu h0 hT e he hlen hfree hlow => ?_⟩
  · rw [clauseEnd_br hg hsp hx fun _ => .inl h0, h0]
    exact branchEnd_none s gid entry c f hm
  · rw [clauseEnd_br hg hsp hx fun _ => .inr hT, hT]
    exact branchEnd_all s gid entry c f hm
  · subst hu
    exact clauseEnd_br_parting hg hsp hx h0 hT
  · exact branch_divides hg hsp hx hsub hu h0 hT he hlen hfree hlow

/-- R102: a call that all lanes take deepens their levels, and a return takes them back, each moving the split. -/
theorem callsAndReturns : Sys2Proof.CallsAndReturnsRule := by
  refine ⟨?_, ?_⟩
  · intro s s1 gid entry g sp c f es hg hsp _ hx hT hm hfit hes hg1
    refine ⟨callEntries_spec g entry _ _ s s1 es hes, ?_⟩
    have hfit' : ∀ l ∈ lanesOf sp.mask, g.depth.get l 0 < 1023 ∧ g.levelFits (g.depth.get l 0) = true :=
      fun l hl => (hfit l hl).imp_right decide_eq_true
    have hend := clauseEnd_call hg hsp hx
    rw [hT, withCalls_ok hg hfit' hes (branchEnd_all s1 gid entry c f hm)] at hend
    have hdepth := depth_called (nodup_lanesOf sp.mask) es (g.setSplit entry (some (sp.atEnd c ((c.off : Int) + f.target.toInt))))
    refine ⟨_, _, _, hend, State.updGroup_self (group?_restore hg1 entry _) fun _ => rfl, rfl, fun l hl => (hdepth l).trans (if_pos hl),
      fun l hl => (hdepth l).trans (if_neg hl), Group.split?_setSplit g entry sp _ hsp, rfl, rfl⟩
  · rintro s s1 s2 gid entry g sp c d ts hg hsp _ ⟨f, hx⟩ hT hm hread rfl hcheck hg2
    have hdepth := depth_returned (nodup_lanesOf sp.mask) (g.setSplit entry (some (sp.atEnd c (d : Int))))
    exact ⟨_, _, _, clauseEnd_ret hg hsp hx hT hm hread hcheck, State.updGroup_self (group?_restore hg2 entry _) fun _ => rfl, rfl,
      fun l hl => (hdepth l).trans (if_pos hl), Group.split?_setSplit g entry sp _ hsp, rfl, rfl⟩

/-- R95, R108: the lanes of EXIT leave their split and every K register, whatever their exit completes. -/
theorem exitEndsLanes : Sys2Proof.ExitEndsLanesRule := by
  intro s gid entry g sp c f hg hsp hx hT
  have hsame := Group.sameRegs_leftBy entry (sp.withPend c) c c.xT
  obtain ⟨g', hg', hregs⟩ := exitLanes_hasRegs c.xT (State.updGroup_self hg fun x => (hsame x).gid)
  refine ⟨_, g', clauseEnd_exit hg hsp hx hT, hg', ?_, fun n => ?_, hregs.win.trans (hsame g).win, hregs.sreg.trans (hsame g).sreg⟩
  · rw [hregs.exited, ← (hsame g).exited]
    rfl
  · rw [hregs.kreg]
    exact kreg_without _ c.xT n

/-- Settles O29: a clause's end moves its split as a whole, divides it, or ends its lanes, as its transfer's lanes agree. -/
theorem clauseEnds : Obligations.ClauseEnds := ⟨branchesDivide, callsAndReturns, exitEndsLanes⟩

end Sys2Proof.SplitsPlanesJoins
end
